-- ==== Sys2Proof/Word.lean ====
section
/-! DEFINITION. The byte and the numbering of ports, panels, zones, entries, records and blocks (00_scope.md, "Numbering"). -/

namespace Sys2Proof

/-- One byte of a kiosk link frame, a device line or the spool. -/
abbrev Byte := BitVec 8

/-- K0–K15. -/
abbrev KioskId := Fin 16

/-- D0–D7. -/
abbrev DeviceId := Fin 8

/-- P0–P15. -/
abbrev PanelId := Fin 16

/-- Z0–Z63. -/
abbrev ZoneId := Fin 64

/-- E0–E31. -/
abbrev RouteId := Fin 32

/-- Slots 0–2 of a kiosk port. -/
abbrev SlotId := Fin 3

/-- Job record index: kiosk port number × 3 + slot. -/
abbrev JobId := Fin 48

/-- B0–B2047. -/
abbrev BlockId := Fin 2048

/-- Contact record index: panel number × 10 + contact id. -/
abbrev ContactIx := Fin 160

/-- A set of the thirteen event flags, bit positions as R150 numbers them. -/
abbrev FlagSet := BitVec 13

end Sys2Proof
end

