-- ==== Sys2Proof/Syntax.lean ====
section
/-! DEFINITION. The commands of the switch: one constructor per row of spec/opcode_table.json. -/

namespace Sys2Proof

/-- What a good kiosk frame brings besides its KIND, which the command's own row fixes (R150). -/
structure Request where
  /-- Service in bits 7–5, unit in bits 4–0. -/
  channel : Byte
  /-- Chosen by the kiosk, copied into the REPLY. -/
  tag : Byte
  payload : List Byte
deriving DecidableEq, Repr

/-- The characters a kiosk port's receiver has gathered since the last idle gap (R140): the first 263 of them, how
many there were, and whether one of them completed with a framing error. -/
structure RxFrame where
  chars : List Byte
  count : Nat
  framing : Bool
deriving DecidableEq, Repr

/-- The commands. `k` is the kiosk port and `d` the device port at which the command comes. -/
inductive Instr where
  /-- POWER_ON_RESET (R171). -/
  | powerOnReset
  /-- STORE_READ_COMPLETE (R171). -/
  | storeReadComplete
  /-- FRAME_CHECK_FAILED (R140): the frame of these characters is taken and fails a check. -/
  | frameCheckFailed (k : KioskId) (taken : RxFrame)
  /-- BAD_FRAME_REQUEST (R142): a good frame whose service and KIND name no request. -/
  | badFrameRequest (k : KioskId) (kind : Byte) (r : Request)
  /-- KIOSK_BREAK (R143). -/
  | kioskBreak (k : KioskId)
  /-- CLEAN_PERIOD (R147). -/
  | cleanPeriod (k : KioskId)
  /-- JOB_OPEN (R31). -/
  | jobOpen (k : KioskId) (r : Request)
  /-- JOB_DATA (R57). -/
  | jobData (k : KioskId) (r : Request)
  /-- JOB_CLOSE (R62). -/
  | jobClose (k : KioskId) (r : Request)
  /-- JOB_ABORT (R9). -/
  | jobAbort (k : KioskId) (r : Request)
  /-- JOB_QUERY (R10). -/
  | jobQuery (k : KioskId) (r : Request)
  /-- UNLOCK (R163). -/
  | unlock (k : KioskId) (r : Request)
  /-- LOCK (R163). -/
  | lock (k : KioskId) (r : Request)
  /-- TABLE_READ (R165). -/
  | tableRead (k : KioskId) (r : Request)
  /-- TABLE_READ_NEXT (R165). -/
  | tableReadNext (k : KioskId) (r : Request)
  /-- TABLE_WRITE of the ROUTE table (R29): the TABLE code of the payload is 0. -/
  | tableWriteRoute (k : KioskId) (channel tag index : Byte) (record : List Byte)
  /-- TABLE_WRITE of the PANEL table (R91): the TABLE code of the payload is 1. -/
  | tableWritePanel (k : KioskId) (channel tag index : Byte) (record : List Byte)
  /-- TABLE_WRITE of the ZONE table (R110): the TABLE code of the payload is 2. -/
  | tableWriteZone (k : KioskId) (channel tag index : Byte) (record : List Byte)
  /-- TABLE_WRITE of the DEVICE table (R162): the TABLE code of the payload is 3. -/
  | tableWriteDevice (k : KioskId) (channel tag index : Byte) (record : List Byte)
  /-- TABLE_WRITE of the KIOSK table (R138, R40): the TABLE code of the payload is 4. -/
  | tableWriteKiosk (k : KioskId) (channel tag index : Byte) (record : List Byte)
  /-- TABLE_WRITE of the spool record (R41): TABLE code 4 and index 16. -/
  | tableWriteSpool (k : KioskId) (channel tag : Byte) (record : List Byte)
  /-- TABLE_WRITE whose payload names no writable table (R165). -/
  | tableWriteReadOnly (k : KioskId) (r : Request)
  /-- TABLE_WRITE_NEXT (R165). -/
  | tableWriteNext (k : KioskId) (r : Request)
  /-- STATUS_READ (R166). -/
  | statusRead (k : KioskId) (r : Request)
  /-- PORT_STATUS (R166). -/
  | portStatus (k : KioskId) (r : Request)
  /-- DEVICE_STATUS (R166). -/
  | deviceStatus (k : KioskId) (r : Request)
  /-- FLAGS_CLEAR (R167). -/
  | flagsClear (k : KioskId) (r : Request)
  /-- NOTICE_SET (R168). -/
  | noticeSet (k : KioskId) (r : Request)
  /-- STORE_WRITE (R169). -/
  | storeWrite (k : KioskId) (r : Request)
  /-- STORE_WRITE_COMPLETE (R169). -/
  | storeWriteComplete
  /-- SWITCH_RESET (R170). -/
  | switchReset (k : KioskId) (r : Request)
  /-- PORT_RESET (R148). -/
  | portReset (k : KioskId) (r : Request)
  /-- DEVICE_DRAIN (R14). -/
  | deviceDrain (k : KioskId) (r : Request)
  /-- DEVICE_RESUME (R15). -/
  | deviceResume (k : KioskId) (r : Request)
  /-- DEVICE_RESET (R24, R160). -/
  | deviceReset (k : KioskId) (r : Request)
  /-- DEVICE_BREAK (R155). -/
  | deviceBreak (k : KioskId) (r : Request)
  /-- TRANSMIT_START (R134). -/
  | transmitStart (k : KioskId)
  /-- FRAME_TRANSMIT_END (R133). -/
  | frameTransmitEnd (k : KioskId)
  /-- BREAK_ECHO_END (R136). -/
  | breakEchoEnd (k : KioskId)
  /-- LINE_GAP_END (R133). -/
  | lineGapEnd (k : KioskId)
  /-- ATN_LINE_CHANGE (R17): the ATN pin takes the level `high`. -/
  | atnLineChange (d : DeviceId) (high : Bool)
  /-- ATN_BLANKING_EXPIRY (R17). -/
  | atnBlankingExpiry (d : DeviceId)
  /-- FAULT_LIMIT_EXPIRY (R20). -/
  | faultLimitExpiry (d : DeviceId)
  /-- RDY_CHANGE (R153): the RDY pin takes the level `high`. -/
  | rdyChange (d : DeviceId) (high : Bool)
  /-- CHARACTER_SENT (R153). -/
  | characterSent (d : DeviceId)
  /-- DEVICE_BREAK_END (R154). -/
  | deviceBreakEnd (d : DeviceId)
  /-- UNDERRUN_TIMEOUT_EXPIRY (R66). -/
  | underrunTimeoutExpiry (d : DeviceId)
  /-- DEVICE_CHAR_RECEIVED (R156): the data byte, the ninth bit (parity or address bit, no meaning in 8N1) and
  whether the stop bit was at mark. -/
  | deviceCharReceived (d : DeviceId) (data : Byte) (ninth stopMark : Bool)
  /-- FIRST_BYTE_TIMEOUT_EXPIRY (R78). -/
  | firstByteTimeoutExpiry (d : DeviceId)
  /-- END_GAP_REACHED (R79). -/
  | endGapReached (d : DeviceId)
  /-- FLUSH_END (R86). -/
  | flushEnd (d : DeviceId)
  /-- POLL_INTERVAL_EXPIRY (R93). -/
  | pollIntervalExpiry (d : DeviceId)
  /-- REPLY_TIMEOUT_EXPIRY (R94). -/
  | replyTimeoutExpiry (d : DeviceId)
  /-- REPLY_IDLE_LIMIT (R95). -/
  | replyIdleLimit (d : DeviceId)
  /-- SETTLING_END (R96). -/
  | settlingEnd (d : DeviceId)
  /-- KIOSK_CHAR_RECEIVED (R147, R140): one character completes on a kiosk link. -/
  | kioskCharReceived (k : KioskId) (char : Byte) (framing : Bool)
  /-- DEVICE_LINE_RETURN_TO_MARK (R157). -/
  | deviceLineReturnToMark (d : DeviceId)
deriving DecidableEq, Repr

end Sys2Proof
end

