-- ==== Sys2Proof/Config.lean ====
section
/-! DEFINITION. What the part fixes by number, and the one free value of the model. -/

namespace Sys2Proof

/-- Bytes in one spool block (R38). -/
def Config.blockBytes : Nat := 128

/-- Most characters of a frame that the receiver keeps (R140). -/
def Config.frameKept : Nat := 263

/-- Largest payload of a kiosk link frame (R150). -/
def Config.maxPayload : Nat := 256

/-- Most REPLY entries of a control queue (R126). -/
def Config.replyCap : Nat := 9

/-- Most entries of a control queue (R124, R125). -/
def Config.controlCap : Nat := 16

/-- Most entries of a touch queue (R124). -/
def Config.touchCap : Nat := 4

/-- Most jobs of a device queue (R11). -/
def Config.queueCap : Nat := 16

/-- Largest offset count of a job: RECEIVED never passes it (R59, R80). -/
def Config.maxOffset : Nat := 16777215

/-- Most blocks a stream job's reservation may reach (R45). -/
def Config.streamTop : Nat := 131072

/-- What a spool byte reads as before anything is written to it. DESIGN CHOICE (log entry 6, unsafe): the spec
gives no contents of a block before its first write, and R38 says that no job reads such a byte. -/
def Config.spoolFill : Byte := 0x00#8

/-- FREE VALUE (log entry 8): a reply byte that a field list of R150 carries and to which no rule gives a value.
Nothing is known of it; it is applied to a counter of State, so that two such bytes need not agree. -/
opaque Config.freeByte : Nat → Byte

end Sys2Proof
end

