-- ==== Sys2Proof/Machine/State.lean ====
section
/-! DEFINITION. Everything the spec gives the switch to hold, as plain data, and its values after power-on reset. -/

namespace Sys2Proof.Machine

/-- What a step can stop with. The spec describes no event that stops the switch, so no command raises a fault and
the type has no constructor (log entry 25). -/
inductive Fault
deriving DecidableEq, Repr

/-- Why a command has no meaning here. -/
inductive Refusal where
  /-- A command whose meaning is not written. No arm uses it. Safe: the model stops where the switch goes on. -/
  | notModelled (mnemonic : String)
deriving DecidableEq, Repr

/-- A timer or count: stopped, running towards the length it was started with, or suspended. How much of it has run
is not held: its expiry is a command (log entry 4). -/
inductive Timer where
  | stopped
  | running (length : Nat)
  | suspended
deriving DecidableEq, Repr

/-! ### Jobs (R1, R2) -/

inductive JobKind where
  | print
  | scan
deriving DecidableEq, Repr

/-- STATE of a live record (R1). -/
inductive JobState where
  | loading
  | ready
  | active
deriving DecidableEq, Repr

/-- Reasons of section 1.3. -/
inductive EndReason where
  | done
  | doneTruncated
  | aborted
  | failedUnderrun
  | failedGap
  | failedStalled
  | failedNoData
  | failedDeviceReset
  | failedNoDevice
  | ownerLost
deriving DecidableEq, Repr

/-- A live job record (section 1.1.1). A field that exists in one kind only stands at its opening value in the
other kind. -/
structure Job where
  state : JobState
  kind : JobKind
  channel : Byte
  device : DeviceId
  priority : Byte
  /-- print: 0 means unknown length. -/
  declaredLength : Nat
  /-- print -/
  complete : Bool
  received : Nat
  sent : Nat
  /-- print -/
  creditLimit : Nat
  /-- The block chain, oldest first. -/
  allocation : List BlockId
  /-- print: F of R39. -/
  freedBlocks : Nat
  /-- scan -/
  command : List Byte
  /-- scan -/
  maxBlocks : Nat
  /-- scan: ABORT_PENDING is yes exactly when a reason is held (R7). -/
  held : Option EndReason
  lineErrors : Bool
  /-- scan -/
  truncated : Bool
  paused : Bool
deriving DecidableEq, Repr

/-! ### Route table (R25) -/

inductive Action where
  | accept
  | deny
deriving DecidableEq, Repr

structure RouteEntry where
  enabled : Bool
  matchValue : Byte
  mask : Byte
  /-- Bit n stands for Kn. -/
  ports : BitVec 16
  action : Action
  device : DeviceId
  hits : Nat
deriving DecidableEq, Repr

/-! ### Device record (R161) -/

inductive DeviceClass where
  | unused
  | printer
  | scanner
  | touch
deriving DecidableEq, Repr

inductive Format where
  | f8N1
  | f8E1
  | f8O1
  | multidrop
deriving DecidableEq, Repr

inductive HoldMode where
  | auto
  | forceActive
  | forceInactive
deriving DecidableEq, Repr

structure DeviceRecord where
  cls : DeviceClass
  format : Format
  /-- PRESCALE is 8 (yes) or 1 (no). -/
  prescale8 : Bool
  divider : Nat
  /-- Polarity bits: yes for active low. -/
  rdyLow : Bool
  atnLow : Bool
  holdLow : Bool
  wakeOnActivity : Bool
  resetBreak : Bool
  /-- ATN_BLANKING by its code: 0, 2, 8 or 32 ms. -/
  atnBlanking : Fin 4
  holdMode : HoldMode
  startThreshold : Nat
  underrunTimeout : Nat
  firstByteTimeout : Nat
  endGap : Nat
  faultLimit : Nat
  holdSet : Nat
  holdClear : Nat
  pollInterval : Nat
  replyTimeout : Nat
deriving DecidableEq, Repr

/-! ### Panels, zones, contacts (R90, R109, section 7.6) -/

inductive Presence where
  | unknown
  | present
  | absent
deriving DecidableEq, Repr

structure Panel where
  enabled : Bool
  device : DeviceId
  address : Byte
  offsetX : Int
  offsetY : Int
  gainX : Nat
  gainY : Nat
  swap : Bool
  mirrorX : Bool
  mirrorY : Bool
  moveSuppress : Bool
  presence : Presence
  missRun : Nat
  clamps : Nat
  /-- Bit 0 REPLY_MALFORMED, bit 1 REPORT_BAD. -/
  causes : BitVec 2
deriving DecidableEq, Repr

structure Zone where
  enabled : Bool
  panel : PanelId
  x0 : Nat
  y0 : Nat
  x1 : Nat
  y1 : Nat
  kiosk : KioskId
  width : Nat
  height : Nat
deriving DecidableEq, Repr

/-- The fields of a BOUND contact record. -/
structure Binding where
  owner : KioskId
  zone : ZoneId
  x0 : Nat
  y0 : Nat
  x1 : Nat
  y1 : Nat
  width : Nat
  height : Nat
  visible : Bool
  upOwed : Bool
  /-- LAST_KX and LAST_KY, absent until a DOWN or MOVE has joined. -/
  last : Option (Nat × Nat)
deriving DecidableEq, Repr

inductive Contact where
  | free
  | unzoned
  | bound (b : Binding)
deriving DecidableEq, Repr

/-! ### Kiosk ports and egress (R124, R144, R163) -/

inductive LinkState where
  | normal
  | degraded
  | isolated
deriving DecidableEq, Repr

/-- The seven tables of R165. -/
inductive TableId where
  | route
  | panel
  | zone
  | device
  | kiosk
  | job
  | contact
deriving DecidableEq, Repr

/-- STATUS of a REPLY (R150). -/
inductive Status where
  | ok
  | denied
  | slotBusy
  | noDevice
  | queueFull
  | portDegraded
  | badState
  | locked
  | badCode
  | busy
  | outOfRange
  | badRequest
deriving DecidableEq, Repr

/-- The reset that waits for a REPLY to end its transmission (R148, R170). -/
inductive AfterSend where
  | nothing
  | switchReset
  | portReset
deriving DecidableEq, Repr

/-- An entry of a control queue (section 8.2). -/
inductive ControlEntry where
  | reply (channel tag kind : Byte) (status : Status) (fields : List Byte) (after : AfterSend)
  | credit (channel : Byte) (slot : SlotId) (limit : Nat)
  | jobEnd (channel : Byte) (slot : SlotId) (reason : EndReason) (count : Nat) (lineErrors : Bool)
  | notice
deriving DecidableEq, Repr

inductive TouchKind where
  | down
  | move
  | up
deriving DecidableEq, Repr

/-- An entry of a touch queue (section 8.3). -/
structure TouchEntry where
  contact : ContactIx
  zone : ZoneId
  kind : TouchKind
  kx : Nat
  ky : Nat
deriving DecidableEq, Repr

/-- LINE of R133. -/
inductive LineState where
  | idle
  | frame
  | brk
  | gap
deriving DecidableEq, Repr

/-- FRAME_SOURCE of R124. -/
inductive FrameSource where
  | none
  | touch
  | control
  | scan (slot : SlotId)
deriving DecidableEq, Repr

structure KioskPort where
  link : LinkState
  score : Nat
  cleanCount : Nat
  cleanTimer : Timer
  unlocked : Bool
  cursor : Option (TableId × Nat)
  /-- Bits as R150 numbers the eight causes of R149. -/
  causes : BitVec 8
  echoPending : Bool
  gathered : RxFrame
  /-- Rate code in effect (R138). -/
  rate : Fin 4
  control : List ControlEntry
  touch : List TouchEntry
  replyHeld : Bool
  line : LineState
  source : FrameSource
  scanLast : SlotId
  /-- The frame on the line, as it was built when its transmission started (R133). -/
  onLine : List Byte
  /-- The reset that the frame on the line releases when it ends. -/
  afterFrame : AfterSend
  /-- RATE of the kiosk record. -/
  recordRate : Fin 4
  /-- QUOTA of the kiosk record. -/
  quota : Nat
deriving DecidableEq, Repr

/-! ### Device ports (R13, R74, R93, R153) -/

inductive ReturnTarget where
  | online
  | draining
  | offline
deriving DecidableEq, Repr

inductive ServiceState where
  | disabled
  | offline
  | online
  | draining
  | fault (target : ReturnTarget)
deriving DecidableEq, Repr

/-- A byte in a transmitter stage, with its address bit on a multidrop port. -/
structure TxChar where
  data : Byte
  address : Bool
deriving DecidableEq, Repr

/-- The device break (R8, R154, R155). -/
inductive BreakState where
  | none
  /-- A pending reset break (R8). -/
  | owed
  /-- A DEVICE_BREAK that waits for the shift stage to empty (log entry 13). -/
  | requested
  | running
deriving DecidableEq, Repr

/-- PHASE of R74. -/
inductive Phase where
  | none
  | reception
  | delivery
deriving DecidableEq, Repr

/-- STEP of R93 with what the step carries. -/
inductive PollStep where
  | sending
  /-- The reply timer runs, from this REPLY_TIMEOUT. -/
  | awaiting (replyTimer : Nat)
  /-- The bytes of the reply so far. -/
  | receiving (bytes : List Byte)
  /-- Whether a character completed in the settling period latches UNSOLICITED (R96). -/
  | settling (latches : Bool)
deriving DecidableEq, Repr

/-- What the poller holds for a touch port (section 6.3). -/
structure Poller where
  running : Bool
  /-- PENDING, in ascending panel index. -/
  pending : List PanelId
  current : Option (PanelId × PollStep)
  roundDue : Bool
  interval : Timer
deriving DecidableEq, Repr

/-- What the scan engine holds for a scanner port (R74). -/
structure ScanEngine where
  phase : Phase
  commandLeft : Nat
  firstByte : Timer
  gap : Timer
  watermark : Bool
  flush : Bool
deriving DecidableEq, Repr

structure DevicePort where
  record : DeviceRecord
  service : ServiceState
  /-- The device queue, head first (R11). -/
  queue : List JobId
  /-- The qualified ATN level is ACTIVE (R17). -/
  atn : Bool
  blanking : Timer
  /-- Live pin levels, high or low. -/
  atnPin : Bool
  rdyPin : Bool
  holding : Option TxChar
  shift : Option TxChar
  brk : BreakState
  /-- The data input is held at space after a framing error (R156). -/
  lineHeld : Bool
  /-- Bits as R150 numbers the four causes of R158. -/
  causes : BitVec 4
  underrun : Timer
  faultLimit : Timer
  scan : ScanEngine
  poller : Poller
deriving DecidableEq, Repr

/-! ### Spool record, settings store (R41, R169) -/

structure SpoolRecord where
  tightSet : Nat
  tightClear : Nat
  onEntry : Bool
  onExit : Bool
deriving DecidableEq, Repr

/-- A settings store write in flight, with the request its REPLY answers. -/
structure StoreWrite where
  code : List Byte
  rate : Fin 4
  port : KioskId
  channel : Byte
  tag : Byte
deriving DecidableEq, Repr

structure Store where
  /-- The kept code and rate code; none for a BLANK store. -/
  contents : Option (List Byte × Fin 4)
  writing : Option StoreWrite
  /-- The access code in effect. -/
  code : List Byte
  /-- The default rate code in effect. -/
  rate : Fin 4
deriving DecidableEq, Repr

/-- The switch. -/
structure State where
  kiosks : Vector KioskPort 16
  devices : Vector DevicePort 8
  jobs : Vector (Option Job) 48
  routes : Vector RouteEntry 32
  panels : Vector Panel 16
  zones : Vector Zone 64
  contacts : Vector Contact 160
  /-- The free list, head first (R38). -/
  free : List BlockId
  /-- The spool's bytes, by block × 128 + position, in the canonical form of `Memory.wf`. -/
  mem : List Host.Cell
  tight : Bool
  grantPointer : JobId
  spoolRecord : SpoolRecord
  flags : FlagSet
  noticeMask : FlagSet
  noticePort : Option KioskId
  store : Store
  /-- The start-up read of the settings store is in progress (R171). -/
  starting : Bool
  /-- The commands that wait, first in, first out (log entry 1). -/
  pending : List Instr
  /-- The model's own: how many free bytes have been drawn (log entry 8). -/
  freeIndex : Nat
deriving DecidableEq, Repr

/-! ### Values after power-on reset -/

/-- No character gathered. -/
def RxFrame.empty : RxFrame := { chars := [], count := 0, framing := false }

/-- R124, R138, R144, R163 after POR; the rates until the store is read are log entry 5's. -/
def KioskPort.reset : KioskPort where
  link := .normal
  score := 0
  cleanCount := 0
  cleanTimer := .stopped
  unlocked := false
  cursor := none
  causes := 0#8
  echoPending := false
  gathered := RxFrame.empty
  rate := 2
  control := []
  touch := []
  replyHeld := false
  line := .idle
  source := .none
  scanLast := 2
  onLine := []
  afterFrame := .nothing
  recordRate := 2
  quota := 256

/-- R161. -/
def DeviceRecord.reset : DeviceRecord where
  cls := .unused
  format := .f8N1
  prescale8 := false
  divider := 15
  rdyLow := false
  atnLow := false
  holdLow := false
  wakeOnActivity := false
  resetBreak := false
  atnBlanking := 1
  holdMode := .auto
  startThreshold := 0
  underrunTimeout := 10
  firstByteTimeout := 50
  endGap := 16
  faultLimit := 30
  holdSet := 24
  holdClear := 8
  pollInterval := 10
  replyTimeout := 5

/-- R74 after POR. -/
def ScanEngine.idle : ScanEngine where
  phase := .none
  commandLeft := 0
  firstByte := .stopped
  gap := .stopped
  watermark := false
  flush := false

/-- Section 6.3: the idle poller. -/
def Poller.idle : Poller where
  running := false
  pending := []
  current := none
  roundDue := false
  interval := .stopped

/-- R13, R17, R153, R158, R161 after POR; the pin levels are log entry 5's. -/
def DevicePort.reset : DevicePort where
  record := DeviceRecord.reset
  service := .disabled
  queue := []
  atn := false
  blanking := .stopped
  atnPin := false
  rdyPin := false
  holding := none
  shift := none
  brk := .none
  lineHeld := false
  causes := 0#4
  underrun := .stopped
  faultLimit := .stopped
  scan := ScanEngine.idle
  poller := Poller.idle

/-- R25. -/
def RouteEntry.reset : RouteEntry where
  enabled := false
  matchValue := 0#8
  mask := 0#8
  ports := 0#16
  action := .deny
  device := 0
  hits := 0

/-- R90. -/
def Panel.reset : Panel where
  enabled := false
  device := 0
  address := 0x01#8
  offsetX := 0
  offsetY := 0
  gainX := 4096
  gainY := 4096
  swap := false
  mirrorX := false
  mirrorY := false
  moveSuppress := false
  presence := .unknown
  missRun := 0
  clamps := 0
  causes := 0#2

/-- R109. -/
def Zone.reset : Zone where
  enabled := false
  panel := 0
  x0 := 0
  y0 := 0
  x1 := 0
  y1 := 0
  kiosk := 0
  width := 1
  height := 1

/-- R41. -/
def SpoolRecord.reset : SpoolRecord where
  tightSet := 4
  tightClear := 8
  onEntry := true
  onExit := false

/-- The code a BLANK store stands for: eight 0x00 bytes (section 11.7). -/
def blankCode : List Byte := [0#8, 0#8, 0#8, 0#8, 0#8, 0#8, 0#8, 0#8]

/-- A part never written; what is in effect before the store is read is log entry 5's. -/
def Store.reset : Store where
  contents := none
  writing := none
  code := blankCode
  rate := 2

/-- B0 to B2047 in ascending order (R38). -/
def allBlocks : List BlockId := List.finRange 2048

/-- The switch right after power-on reset, its store read under way (R171), no command waiting. -/
def State.reset : State where
  kiosks := Vector.replicate 16 KioskPort.reset
  devices := Vector.replicate 8 DevicePort.reset
  jobs := Vector.replicate 48 none
  routes := Vector.replicate 32 RouteEntry.reset
  panels := Vector.replicate 16 Panel.reset
  zones := Vector.replicate 64 Zone.reset
  contacts := Vector.replicate 160 .free
  free := allBlocks
  mem := []
  tight := false
  grantPointer := 47
  spoolRecord := SpoolRecord.reset
  flags := 0#13
  noticeMask := 0#13
  noticePort := none
  store := Store.reset
  starting := true
  pending := []
  freeIndex := 0

end Sys2Proof.Machine
end

