-- ==== Sys2Proof/Machine/Flags.lean ====
section
/-! DEFINITION. The event flags (R167) and the latched cause sets (R149, R158, section 6.1), as bits numbered by R150. -/

namespace Sys2Proof.Machine

/-- The thirteen event flags of section 11.5. -/
inductive Flag where
  | spoolEvent
  | kioskWarn
  | kioskDegraded
  | kioskIsolated
  | kioskRecovered
  | deviceFault
  | deviceActivity
  | deviceDrained
  | panelAbsent
  | panelPresent
  | touchOverrun
  | egressDrop
  | storeDone
deriving DecidableEq, Repr

/-- The eight causes of a kiosk port (R149). -/
inductive KioskCause where
  | crcError
  | charFraming
  | overlength
  | lengthMismatch
  | creditViolation
  | badCode
  | requestDropped
  | touchOverrun
deriving DecidableEq, Repr

/-- The four causes of a device port (R158). -/
inductive DeviceCause where
  | parity
  | charFraming
  | unsolicited
  | truncation
deriving DecidableEq, Repr

/-- The two causes of a panel (section 6.1). -/
inductive PanelCause where
  | replyMalformed
  | reportBad
deriving DecidableEq, Repr

/-- Flag set bits of R150. -/
def Flag.bit : Flag → Nat
  | .spoolEvent => 0
  | .kioskWarn => 1
  | .kioskDegraded => 2
  | .kioskIsolated => 3
  | .kioskRecovered => 4
  | .deviceFault => 5
  | .deviceActivity => 6
  | .deviceDrained => 7
  | .panelAbsent => 8
  | .panelPresent => 9
  | .touchOverrun => 10
  | .egressDrop => 11
  | .storeDone => 12

/-- The set that holds one flag alone. -/
def Flag.mask (f : Flag) : FlagSet := BitVec.ofNat 13 (2 ^ f.bit)

/-- The flag is in the set. -/
def Flag.isIn (f : Flag) (w : FlagSet) : Bool := w.getLsbD f.bit

/-- Cause set bits of R150. -/
def KioskCause.bit : KioskCause → Nat
  | .crcError => 0
  | .charFraming => 1
  | .overlength => 2
  | .lengthMismatch => 3
  | .creditViolation => 4
  | .badCode => 5
  | .requestDropped => 6
  | .touchOverrun => 7

/-- Cause set bits of R150. -/
def DeviceCause.bit : DeviceCause → Nat
  | .parity => 0
  | .charFraming => 1
  | .unsolicited => 2
  | .truncation => 3

/-- Cause set bits of R150. -/
def PanelCause.bit : PanelCause → Nat
  | .replyMalformed => 0
  | .reportBad => 1

/-- A cause joins a kiosk port's set (R149). -/
def KioskPort.latch (c : KioskCause) (p : KioskPort) : KioskPort :=
  { p with causes := p.causes ||| BitVec.ofNat 8 (2 ^ c.bit) }

/-- A cause joins a device port's set (R158). -/
def DevicePort.latch (c : DeviceCause) (p : DevicePort) : DevicePort :=
  { p with causes := p.causes ||| BitVec.ofNat 4 (2 ^ c.bit) }

/-- A cause joins a panel's set (section 6.1). -/
def Panel.latch (c : PanelCause) (p : Panel) : Panel :=
  { p with causes := p.causes ||| BitVec.ofNat 2 (2 ^ c.bit) }

/-- The cause stands in a kiosk port's set. -/
def KioskCause.isIn (c : KioskCause) (w : BitVec 8) : Bool := w.getLsbD c.bit

/-- The cause stands in a device port's set. -/
def DeviceCause.isIn (c : DeviceCause) (w : BitVec 4) : Bool := w.getLsbD c.bit

/-- The cause stands in a panel's set. -/
def PanelCause.isIn (c : PanelCause) (w : BitVec 2) : Bool := w.getLsbD c.bit

end Sys2Proof.Machine
end

