-- ==== Sys2Proof/Machine/Ops.lean ====
section
/-! DEFINITION. The one home of every table, queue and memory access: reads, writes, the control queue's insertions
(R125–R129), raising a flag with its NOTICE (R168), and the spool's bytes (R38). -/

namespace Sys2Proof.Machine

/-! ### Tables -/

def State.kiosk (s : State) (k : KioskId) : KioskPort := s.kiosks[k]
def State.device (s : State) (d : DeviceId) : DevicePort := s.devices[d]
def State.job (s : State) (i : JobId) : Option Job := s.jobs[i]
def State.route (s : State) (e : RouteId) : RouteEntry := s.routes[e]
def State.panel (s : State) (p : PanelId) : Panel := s.panels[p]
def State.zone (s : State) (z : ZoneId) : Zone := s.zones[z]
def State.contact (s : State) (c : ContactIx) : Contact := s.contacts[c]

def State.setKiosk (s : State) (k : KioskId) (p : KioskPort) : State := { s with kiosks := s.kiosks.set k p }
def State.setDevice (s : State) (d : DeviceId) (p : DevicePort) : State := { s with devices := s.devices.set d p }
def State.setJob (s : State) (i : JobId) (j : Option Job) : State := { s with jobs := s.jobs.set i j }
def State.setRoute (s : State) (e : RouteId) (r : RouteEntry) : State := { s with routes := s.routes.set e r }
def State.setPanel (s : State) (p : PanelId) (e : Panel) : State := { s with panels := s.panels.set p e }
def State.setZone (s : State) (z : ZoneId) (e : Zone) : State := { s with zones := s.zones.set z e }
def State.setContact (s : State) (c : ContactIx) (r : Contact) : State := { s with contacts := s.contacts.set c r }
def State.setFree (s : State) (l : List BlockId) : State := { s with free := l }
def State.setMem (s : State) (m : List Host.Cell) : State := { s with mem := m }
def State.setTight (s : State) (b : Bool) : State := { s with tight := b }
def State.setGrantPointer (s : State) (i : JobId) : State := { s with grantPointer := i }
def State.setSpoolRecord (s : State) (r : SpoolRecord) : State := { s with spoolRecord := r }
def State.setFlags (s : State) (w : FlagSet) : State := { s with flags := w }
def State.setNotice (s : State) (p : Option KioskId) (w : FlagSet) : State :=
  { s with noticePort := p, noticeMask := w }
def State.setStore (s : State) (st : Store) : State := { s with store := st }
def State.advanceFree (s : State) (n : Nat) : State := { s with freeIndex := s.freeIndex + n }

def State.modKiosk (s : State) (k : KioskId) (f : KioskPort → KioskPort) : State := s.setKiosk k (f (s.kiosk k))
def State.modDevice (s : State) (d : DeviceId) (f : DevicePort → DevicePort) : State := s.setDevice d (f (s.device d))
def State.modPanel (s : State) (p : PanelId) (f : Panel → Panel) : State := s.setPanel p (f (s.panel p))

/-- Changes a live record; a FREE record holds nothing to change (section 1.1.1). -/
def State.modJob (s : State) (i : JobId) (f : Job → Job) : State :=
  match s.job i with
  | some j => s.setJob i (some (f j))
  | none => s

/-- A table with every entry changed by one function. -/
def mapTable {α β : Type} {n : Nat} (f : α → β) (v : Vector α n) : Vector β n :=
  ⟨⟨v.toList.map f⟩, by simp⟩

/-! ### Numbering -/

/-- Job record index of a slot: kiosk port number × 3 + slot. -/
def jobIx (k : KioskId) (slot : SlotId) : JobId := ⟨k.val * 3 + slot.val, by omega⟩

/-- The kiosk port of a job record. -/
def jobKiosk (i : JobId) : KioskId := ⟨i.val / 3, by omega⟩

/-- The slot of a job record. -/
def jobSlot (i : JobId) : SlotId := ⟨i.val % 3, by omega⟩

/-- Contact record index: panel number × 10 + contact id. -/
def contactIx (p : PanelId) (c : Fin 10) : ContactIx := ⟨p.val * 10 + c.val, by omega⟩

/-- The panel of a contact record. -/
def contactPanel (c : ContactIx) : PanelId := ⟨c.val / 10, by omega⟩

/-- The contact id of a contact record. -/
def contactId (c : ContactIx) : Fin 10 := ⟨c.val % 10, by omega⟩

def allKiosks : List KioskId := List.finRange 16
def allDevices : List DeviceId := List.finRange 8
def allPanels : List PanelId := List.finRange 16
def allZones : List ZoneId := List.finRange 64
def allRoutes : List RouteId := List.finRange 32
def allJobs : List JobId := List.finRange 48
def allContacts : List ContactIx := List.finRange 160
def allSlots : List SlotId := List.finRange 3

/-! ### Control queue (section 8.2) -/

def ControlEntry.isReply : ControlEntry → Bool
  | .reply .. => true
  | _ => false

def ControlEntry.isNotice : ControlEntry → Bool
  | .notice => true
  | _ => false

def ControlEntry.isCreditFor (slot : SlotId) : ControlEntry → Bool
  | .credit _ t _ => t == slot
  | _ => false

def ControlEntry.isJobEndFor (slot : SlotId) : ControlEntry → Bool
  | .jobEnd _ t _ _ _ => t == slot
  | _ => false

/-- An entry joins the tail (R125). -/
def State.handControl (s : State) (k : KioskId) (e : ControlEntry) : State :=
  s.modKiosk k fun p => { p with control := p.control ++ [e] }

/-- A waiting CREDIT for the slot takes the new limit in place (R127). -/
def updateCredit (slot : SlotId) (limit : Nat) : List ControlEntry → List ControlEntry
  | [] => []
  | .credit ch t l :: rest =>
    if t = slot then .credit ch t limit :: rest else .credit ch t l :: updateCredit slot limit rest
  | e :: rest => e :: updateCredit slot limit rest

/-- R127: the CREDIT is updated in place or joins the tail. -/
def State.handCredit (s : State) (k : KioskId) (channel : Byte) (slot : SlotId) (limit : Nat) : State :=
  s.modKiosk k fun p =>
    if p.control.any (ControlEntry.isCreditFor slot) then { p with control := updateCredit slot limit p.control }
    else { p with control := p.control ++ [.credit channel slot limit] }

/-- R128: a waiting CREDIT of the slot is removed, then the JOB_END joins the tail. -/
def State.handJobEnd (s : State) (k : KioskId) (channel : Byte) (slot : SlotId) (reason : EndReason) (count : Nat)
    (lineErrors : Bool) : State :=
  s.modKiosk k fun p =>
    { p with control :=
        p.control.filter (fun e => !e.isCreditFor slot) ++ [.jobEnd channel slot reason count lineErrors] }

/-- R129: a waiting NOTICE absorbs a new one. -/
def State.handNotice (s : State) (k : KioskId) : State :=
  s.modKiosk k fun p =>
    if p.control.any ControlEntry.isNotice then p else { p with control := p.control ++ [.notice] }

/-- R129, R168: Kn stops being the notice port, its waiting NOTICE is removed and the mask emptied. -/
def State.dropNoticePort (s : State) (k : KioskId) : State :=
  if s.noticePort = some k then
    (s.modKiosk k fun p => { p with control := p.control.filter fun e => !e.isNotice }).setNotice none 0#13
  else s

/-- R167, R168: the flag is set; a flag of the mask that goes from clear to set hands a NOTICE. -/
def State.raise (s : State) (f : Flag) : State :=
  if f.isIn s.flags then s
  else
    let t := s.setFlags (s.flags ||| f.mask)
    match s.noticePort with
    | some k => if f.isIn s.noticeMask then t.handNotice k else t
    | none => t

def State.latchKiosk (s : State) (k : KioskId) (c : KioskCause) : State := s.modKiosk k (KioskPort.latch c)
def State.latchDevice (s : State) (d : DeviceId) (c : DeviceCause) : State := s.modDevice d (DevicePort.latch c)
def State.latchPanel (s : State) (p : PanelId) (c : PanelCause) : State := s.modPanel p (Panel.latch c)

/-- A slot is occupied while its record is live or its JOB_END waits (R1). -/
def State.jobEndWaits (s : State) (k : KioskId) (slot : SlotId) : Bool :=
  (s.kiosk k).control.any (ControlEntry.isJobEndFor slot)

/-- R1. -/
def State.occupied (s : State) (k : KioskId) (slot : SlotId) : Bool :=
  (s.job (jobIx k slot)).isSome || s.jobEndWaits k slot

/-! ### Spool bytes (R38, R39) -/

/-- Canonical form: addresses strictly rising, inside the spool, and no entry equal to what an unlisted byte reads
as. -/
def Memory.wfFrom : Nat → List Host.Cell → Bool
  | _, [] => true
  | lo, (a, b) :: rest =>
    decide (lo ≤ a) && decide (a < 262144) && decide (b ≠ Config.spoolFill) && Memory.wfFrom (a + 1) rest

/-- The spool's memory is in its canonical form. -/
def Memory.wf (m : List Host.Cell) : Bool := Memory.wfFrom 0 m

/-- The byte at an address. -/
def Memory.read : List Host.Cell → Nat → Byte
  | [], _ => Config.spoolFill
  | (a, b) :: rest, x => if a = x then b else Memory.read rest x

/-- A byte written at an address; the value an unlisted byte reads as removes the entry. -/
def Memory.write : List Host.Cell → Nat → Byte → List Host.Cell
  | [], x, v => if v = Config.spoolFill then [] else [(x, v)]
  | (a, b) :: rest, x, v =>
    if x < a then (if v = Config.spoolFill then (a, b) :: rest else (x, v) :: (a, b) :: rest)
    else if x = a then (if v = Config.spoolFill then rest else (x, v) :: rest)
    else (a, b) :: Memory.write rest x v

/-- Address of a byte of a block. -/
def blockAddr (b : BlockId) (pos : Nat) : Nat := b.val * 128 + pos % 128

/-- The byte at a position of a block. -/
def State.readBlock (s : State) (b : BlockId) (pos : Nat) : Byte := Memory.read s.mem (blockAddr b pos)

/-- A byte written at a position of a block. -/
def State.writeBlock (s : State) (b : BlockId) (pos : Nat) (v : Byte) : State :=
  s.setMem (Memory.write s.mem (blockAddr b pos) v)

/-- The first `n` bytes of a block, in order. -/
def State.blockBytes (s : State) (b : BlockId) (n : Nat) : List Byte :=
  (List.range n).map fun i => s.readBlock b i

/-! ### Free reply bytes (log entry 8) -/

/-- The next `n` free bytes. -/
def State.freeBytes (s : State) (n : Nat) : List Byte :=
  (List.range n).map fun i => Config.freeByte (s.freeIndex + i)

end Sys2Proof.Machine
end

