-- ==== Sys2Proof/Machine/Operands.lean ====
section
/-! DEFINITION. The operand forms: byte order, codes, request payloads, table records and reply fields of R150, with
the clamps and form checks the records' own chapters give. -/

namespace Sys2Proof.Machine

/-! ### Byte order (R150: high byte first, signed numbers two's complement) -/

/-- The low byte of a number. -/
def byte (n : Nat) : Byte := BitVec.ofNat 8 n

def be16 (n : Nat) : List Byte := [byte (n / 256), byte n]
def be24 (n : Nat) : List Byte := [byte (n / 65536), byte (n / 256), byte n]

/-- Byte i of a payload or record; 0 where there is none (every use stands behind a length check). -/
def byteAt (bs : List Byte) (i : Nat) : Nat := (bs.getD i 0#8).toNat

def word16 (bs : List Byte) (i : Nat) : Nat := byteAt bs i * 256 + byteAt bs (i + 1)
def word24 (bs : List Byte) (i : Nat) : Nat := byteAt bs i * 65536 + byteAt bs (i + 1) * 256 + byteAt bs (i + 2)

/-- A signed 16-bit number. -/
def signed16 (bs : List Byte) (i : Nat) : Int := (BitVec.ofNat 16 (word16 bs i)).toInt

/-- A signed number as two bytes. -/
def beSigned16 (v : Int) : List Byte := be16 (BitVec.ofInt 16 v).toNat

/-- Bit i of a byte given as a number. -/
def bitAt (n i : Nat) : Bool := n.testBit i

/-- A bit in its place. -/
def bitValue (b : Bool) (i : Nat) : Nat := if b then 2 ^ i else 0

/-- The value that stands for none in a one-byte field (R150). -/
def noneByte : Byte := 0xFF#8

/-- A one-byte field that may stand for none. -/
def optByte : Option Nat → Byte
  | some n => byte n
  | none => noneByte

/-- An index within a table of `n` entries. -/
def toFin (n : Nat) (i : Nat) : Option (Fin n) := if h : i < n then some ⟨i, h⟩ else none

/-! ### Channels -/

/-- The service of a channel: bits 7–5. -/
def service (channel : Byte) : Nat := channel.toNat / 32

/-- The unit of a channel: bits 4–0. -/
def unit (channel : Byte) : Nat := channel.toNat % 32

def serviceManage : Nat := 0
def servicePrint : Nat := 1
def serviceScan : Nat := 2
def serviceTouch : Nat := 6

/-! ### Codes of R150 -/

def kindJobOpen : Byte := 0x01#8
def kindJobData : Byte := 0x02#8
def kindJobClose : Byte := 0x03#8
def kindJobAbort : Byte := 0x04#8
def kindJobQuery : Byte := 0x05#8
def kindUnlock : Byte := 0x10#8
def kindLock : Byte := 0x11#8
def kindTableRead : Byte := 0x12#8
def kindTableWrite : Byte := 0x13#8
def kindTableReadNext : Byte := 0x14#8
def kindTableWriteNext : Byte := 0x15#8
def kindStatusRead : Byte := 0x16#8
def kindPortStatus : Byte := 0x17#8
def kindDeviceStatus : Byte := 0x18#8
def kindFlagsClear : Byte := 0x19#8
def kindNoticeSet : Byte := 0x1A#8
def kindDeviceDrain : Byte := 0x1B#8
def kindDeviceResume : Byte := 0x1C#8
def kindDeviceReset : Byte := 0x1D#8
def kindDeviceBreak : Byte := 0x1E#8
def kindPortReset : Byte := 0x1F#8
def kindSwitchReset : Byte := 0x20#8
def kindStoreWrite : Byte := 0x21#8
def kindReply : Byte := 0x80#8
def kindCredit : Byte := 0x81#8
def kindJobEnd : Byte := 0x82#8
def kindScanData : Byte := 0x83#8
def kindTouch : Byte := 0x84#8
def kindNotice : Byte := 0x85#8

/-- KIND names a job request that is answered by a REPLY. -/
def isJobKind (kind : Byte) : Bool :=
  kind == kindJobOpen || kind == kindJobClose || kind == kindJobAbort || kind == kindJobQuery

/-- KIND names a management request: 0x10 to 0x21. -/
def isManageKind (kind : Byte) : Bool := decide (0x10 ≤ kind.toNat) && decide (kind.toNat ≤ 0x21)

def Status.code : Status → Byte
  | .ok => 0x00#8
  | .denied => 0x01#8
  | .slotBusy => 0x02#8
  | .noDevice => 0x03#8
  | .queueFull => 0x04#8
  | .portDegraded => 0x05#8
  | .badState => 0x06#8
  | .locked => 0x07#8
  | .badCode => 0x08#8
  | .busy => 0x09#8
  | .outOfRange => 0x0A#8
  | .badRequest => 0x0B#8

/-- REASON codes; OWNER_LOST makes no JOB_END (R6) and has no code, 0xFF stands for none. -/
def EndReason.code : EndReason → Byte
  | .done => 0#8
  | .doneTruncated => 1#8
  | .aborted => 2#8
  | .failedUnderrun => 3#8
  | .failedGap => 4#8
  | .failedStalled => 5#8
  | .failedNoData => 6#8
  | .failedDeviceReset => 7#8
  | .failedNoDevice => 8#8
  | .ownerLost => noneByte

def JobState.code : JobState → Nat
  | .loading => 1
  | .ready => 2
  | .active => 3

/-- STATE of a record: 0 FREE. -/
def jobStateCode : Option Job → Nat
  | none => 0
  | some j => j.state.code

def JobKind.code : JobKind → Nat
  | .print => 0
  | .scan => 1

/-- Service states of DEVICE_DRAIN's and DEVICE_STATUS's reply. -/
def ServiceState.code : ServiceState → Nat
  | .disabled => 0
  | .offline => 1
  | .online => 2
  | .draining => 3
  | .fault _ => 4

/-- The return target by its service-state code, none outside FAULT (log entry 10). -/
def ServiceState.targetCode : ServiceState → Option Nat
  | .fault .online => some 2
  | .fault .draining => some 3
  | .fault .offline => some 1
  | _ => none

def DeviceClass.code : DeviceClass → Nat
  | .unused => 0
  | .printer => 1
  | .scanner => 2
  | .touch => 3

def Format.code : Format → Nat
  | .f8N1 => 0
  | .f8E1 => 1
  | .f8O1 => 2
  | .multidrop => 3

def HoldMode.code : HoldMode → Nat
  | .auto => 0
  | .forceActive => 1
  | .forceInactive => 2

def Presence.code : Presence → Nat
  | .unknown => 0
  | .present => 1
  | .absent => 2

def LinkState.code : LinkState → Nat
  | .normal => 0
  | .degraded => 1
  | .isolated => 2

def LineState.code : LineState → Nat
  | .idle => 0
  | .frame => 1
  | .brk => 2
  | .gap => 3

/-- PHASE in the order R74 lists its values (log entry 10). -/
def Phase.code : Phase → Nat
  | .none => 0
  | .reception => 1
  | .delivery => 2

/-- STEP in the order section 6.3 lists its values (log entry 10). -/
def PollStep.code : PollStep → Nat
  | .sending => 0
  | .awaiting _ => 1
  | .receiving _ => 2
  | .settling _ => 3

def TouchKind.code : TouchKind → Nat
  | .down => 1
  | .move => 2
  | .up => 3

def TableId.code : TableId → Nat
  | .route => 0
  | .panel => 1
  | .zone => 2
  | .device => 3
  | .kiosk => 4
  | .job => 5
  | .contact => 6

def tableOfCode : Nat → Option TableId
  | 0 => some .route
  | 1 => some .panel
  | 2 => some .zone
  | 3 => some .device
  | 4 => some .kiosk
  | 5 => some .job
  | 6 => some .contact
  | _ => none

/-- Entries of each table (R165). -/
def TableId.size : TableId → Nat
  | .route => 32
  | .panel => 16
  | .zone => 64
  | .device => 8
  | .kiosk => 17
  | .job => 48
  | .contact => 160

/-- Record length of each table (R165). -/
def TableId.recordSize : TableId → Nat
  | .route => 8
  | .panel => 16
  | .zone => 16
  | .device => 16
  | .kiosk => 4
  | .job => 16
  | .contact => 18

def TableId.readOnly : TableId → Bool
  | .job | .contact => true
  | _ => false

def classOfCode : Nat → Option DeviceClass
  | 0 => some .unused
  | 1 => some .printer
  | 2 => some .scanner
  | 3 => some .touch
  | _ => none

def formatOfCode : Nat → Option Format
  | 0 => some .f8N1
  | 1 => some .f8E1
  | 2 => some .f8O1
  | 3 => some .multidrop
  | _ => none

def holdModeOfCode : Nat → Option HoldMode
  | 0 => some .auto
  | 1 => some .forceActive
  | 2 => some .forceInactive
  | _ => none

def actionOfCode : Nat → Option Action
  | 0 => some .deny
  | 1 => some .accept
  | _ => none

def Action.code : Action → Nat
  | .deny => 0
  | .accept => 1

/-! ### Job request payloads -/

/-- What a well-formed JOB_OPEN carries (section 2.4). -/
structure OpenArgs where
  slot : SlotId
  priority : Byte
  kind : JobKind
  declaredLength : Nat
  maxBlocks : Nat
  command : List Byte
deriving DecidableEq, Repr

/-- The form check of R31; MAX_BLOCKS is brought into 1–2048 there (R2, R31). -/
def parseOpen (channel : Byte) (payload : List Byte) : Option OpenArgs :=
  match toFin 3 (byteAt payload 0) with
  | none => none
  | some slot =>
    if service channel = servicePrint then
      if payload.length = 5 then
        some { slot := slot, priority := byte (byteAt payload 1), kind := .print,
               declaredLength := word24 payload 2, maxBlocks := 0, command := [] }
      else none
    else if service channel = serviceScan then
      if 5 ≤ payload.length ∧ byteAt payload 4 ≤ 64 ∧ payload.length = 5 + byteAt payload 4 then
        some { slot := slot, priority := byte (byteAt payload 1), kind := .scan, declaredLength := 0,
               maxBlocks := max 1 (min (word16 payload 2) 2048), command := payload.drop 5 }
      else none
    else none

/-- SLOT of a JOB_CLOSE, JOB_ABORT or JOB_QUERY payload (R142: a SLOT of 3 or more, or another length, is refused). -/
def parseSlot (payload : List Byte) : Option SlotId :=
  if payload.length = 1 then toFin 3 (byteAt payload 0) else none

/-- The first payload byte, or the byte for none when the payload is empty (log entry 9). -/
def slotAsked (payload : List Byte) : Byte := payload.getD 0 noneByte

/-! ### Records -/

/-- ROUTE record, 8 bytes; HITS carried is ignored (R29). -/
def decodeRoute (r : List Byte) : Option RouteEntry :=
  match actionOfCode (byteAt r 5 / 16), toFin 8 (byteAt r 5 % 16) with
  | some a, some d =>
    some { enabled := bitAt (byteAt r 0) 0, matchValue := byte (byteAt r 1), mask := byte (byteAt r 2),
           ports := BitVec.ofNat 16 (word16 r 3), action := a, device := d, hits := 0 }
  | _, _ => none

def encodeRoute (e : RouteEntry) : List Byte :=
  [byte (bitValue e.enabled 0), e.matchValue, e.mask] ++ be16 e.ports.toNat ++
    [byte (e.action.code * 16 + e.device.val)] ++ be16 e.hits

/-- R105: OFFSET into −2048 to 2047. -/
def clampOffset (v : Int) : Int := max (-2048) (min v 2047)

/-- R105: GAIN into 2048–8191. -/
def clampGain (v : Nat) : Nat := max 2048 (min v 8191)

/-- PANEL record, 16 bytes, with the clamps of R105; PRESENCE, MISS_RUN and CLAMPS carried are ignored and the cause
set is kept (R91). None when check 2 of R91 fails. -/
def decodePanel (old : Panel) (r : List Byte) : Option Panel :=
  match toFin 8 (byteAt r 1) with
  | none => none
  | some d =>
    if byteAt r 2 = 0x00 ∨ byteAt r 2 = 0xFF then none
    else
      some { enabled := bitAt (byteAt r 0) 0, device := d, address := byte (byteAt r 2),
             offsetX := clampOffset (signed16 r 4), offsetY := clampOffset (signed16 r 6),
             gainX := clampGain (word16 r 8), gainY := clampGain (word16 r 10),
             swap := bitAt (byteAt r 0) 1, mirrorX := bitAt (byteAt r 0) 2, mirrorY := bitAt (byteAt r 0) 3,
             moveSuppress := bitAt (byteAt r 0) 4, presence := .unknown, missRun := 0, clamps := 0,
             causes := old.causes }

def encodePanel (p : Panel) : List Byte :=
  [byte (bitValue p.enabled 0 + bitValue p.swap 1 + bitValue p.mirrorX 2 + bitValue p.mirrorY 3 +
      bitValue p.moveSuppress 4),
    byte p.device.val, p.address, byte p.presence.code] ++
    beSigned16 p.offsetX ++ beSigned16 p.offsetY ++ be16 p.gainX ++ be16 p.gainY ++
    [byte p.missRun] ++ be16 p.clamps ++ [0#8]

/-- R110: a coordinate above 4095 is taken as 4095. -/
def clampCoord (v : Nat) : Nat := min v 4095

/-- R110: a size into 1–32767. -/
def clampSize (v : Nat) : Nat := max 1 (min v 32767)

/-- ZONE record, 16 bytes, with the clamps of R110; none when check 2 or 3 of R110 fails. -/
def decodeZone (r : List Byte) : Option Zone :=
  match toFin 16 (byteAt r 1), toFin 16 (byteAt r 2) with
  | some p, some k =>
    if clampCoord (word16 r 4) ≤ clampCoord (word16 r 8) ∧ clampCoord (word16 r 6) ≤ clampCoord (word16 r 10) then
      some { enabled := bitAt (byteAt r 0) 0, panel := p, kiosk := k,
             x0 := clampCoord (word16 r 4), y0 := clampCoord (word16 r 6),
             x1 := clampCoord (word16 r 8), y1 := clampCoord (word16 r 10),
             width := clampSize (word16 r 12), height := clampSize (word16 r 14) }
    else none
  | _, _ => none

def encodeZone (z : Zone) : List Byte :=
  [byte (bitValue z.enabled 0), byte z.panel.val, byte z.kiosk.val, 0#8] ++
    be16 z.x0 ++ be16 z.y0 ++ be16 z.x1 ++ be16 z.y1 ++ be16 z.width ++ be16 z.height

/-- DEVICE record, 16 bytes, with the clamps of R162; none when check 3 or 4 of R162 fails. -/
def decodeDevice (r : List Byte) : Option DeviceRecord :=
  match classOfCode (byteAt r 0), formatOfCode (byteAt r 1), holdModeOfCode (byteAt r 5) with
  | some c, some f, some h =>
    if f = .multidrop ∧ c ≠ .touch then none
    else
      some { cls := c, format := f, prescale8 := bitAt (word16 r 2) 15, divider := word16 r 2 % 4096,
             rdyLow := bitAt (byteAt r 4) 0, atnLow := bitAt (byteAt r 4) 1, holdLow := bitAt (byteAt r 4) 2,
             wakeOnActivity := bitAt (byteAt r 4) 3, resetBreak := bitAt (byteAt r 4) 4,
             atnBlanking := ⟨byteAt r 4 / 32 % 4, by omega⟩, holdMode := h,
             startThreshold := byteAt r 6, underrunTimeout := max 1 (byteAt r 7),
             firstByteTimeout := max 1 (byteAt r 8), endGap := max 2 (byteAt r 9),
             faultLimit := max 1 (byteAt r 10), holdSet := max 1 (byteAt r 11), holdClear := max 1 (byteAt r 12),
             pollInterval := max 1 (byteAt r 13), replyTimeout := max 1 (byteAt r 14) }
  | _, _, _ => none

def encodeDevice (d : DeviceRecord) : List Byte :=
  [byte d.cls.code, byte d.format.code] ++ be16 (bitValue d.prescale8 15 + d.divider) ++
    [byte (bitValue d.rdyLow 0 + bitValue d.atnLow 1 + bitValue d.holdLow 2 + bitValue d.wakeOnActivity 3 +
        bitValue d.resetBreak 4 + d.atnBlanking.val * 32),
      byte d.holdMode.code, byte d.startThreshold, byte d.underrunTimeout, byte d.firstByteTimeout, byte d.endGap,
      byte d.faultLimit, byte d.holdSet, byte d.holdClear, byte d.pollInterval, byte d.replyTimeout, 0#8]

/-- KIOSK record of a port, 4 bytes: RATE above 3 is refused (R138), QUOTA above 2048 is stored as 2048 (R40). -/
def decodeKiosk (r : List Byte) : Option (Fin 4 × Nat) :=
  match toFin 4 (byteAt r 0) with
  | some rate => some (rate, min (word16 r 2) 2048)
  | none => none

def encodeKiosk (p : KioskPort) : List Byte := [byte p.recordRate.val, 0#8] ++ be16 p.quota

/-- The spool record, 4 bytes, a code above 31 stored as 31 (R41). -/
def decodeSpool (r : List Byte) : SpoolRecord :=
  { tightSet := min (byteAt r 0) 31, tightClear := min (byteAt r 1) 31,
    onEntry := bitAt (byteAt r 2) 0, onExit := bitAt (byteAt r 2) 1 }

def encodeSpool (r : SpoolRecord) : List Byte :=
  [byte r.tightSet, byte r.tightClear, byte (bitValue r.onEntry 0 + bitValue r.onExit 1), 0#8]

/-- What the COMPLETE bit of a record shows: the field of a print job; a scan job has none (section 1.1.1), and the bit
is free (log entry 8). -/
def Job.completeBit (j : Job) (drawn : Byte) : Bool :=
  match j.kind with
  | .print => j.complete
  | .scan => drawn.getLsbD 0

/-- What the TRUNCATED bit shows: the field of a scan job; a print job has none, and the bit is free (log entry 8). -/
def Job.truncatedBit (j : Job) (drawn : Byte) : Bool :=
  match j.kind with
  | .print => drawn.getLsbD 0
  | .scan => j.truncated

/-- What the ABORT_PENDING bit shows: whether a scan job's ending is held (R7); a print job has no such field, and the
bit is free (log entry 8). -/
def Job.abortBit (j : Job) (drawn : Byte) : Bool :=
  match j.kind with
  | .print => drawn.getLsbD 1
  | .scan => j.held.isSome

/-- JOB record, 16 bytes; a FREE record is sent as zeros. `drawn` gives the bits to which no rule gives a value: COMPLETE
of a scan job, TRUNCATED and ABORT_PENDING of a print job (log entry 8). -/
def encodeJob (drawn : Byte) : Option Job → List Byte
  | none => List.replicate 16 0#8
  | some j =>
    [byte (j.state.code + bitValue (j.kind == .scan) 2 + bitValue (j.completeBit drawn) 3 + bitValue j.paused 4 +
        bitValue (j.abortBit drawn) 5 + bitValue j.lineErrors 6 + bitValue (j.truncatedBit drawn) 7),
      j.channel, byte j.device.val, j.priority] ++ be24 j.received ++ be24 j.sent ++
      be24 (match j.kind with | .print => j.creditLimit | .scan => j.maxBlocks) ++
      be24 (j.allocation.length * 4096 + (match j.allocation with | b :: _ => b.val | [] => 0xFFF))

/-- Two 12-bit values in three bytes. -/
def pack12 (a b : Nat) : List Byte := be24 (a * 4096 + b)

/-- CONTACT record, 18 bytes. `open8` gives the bytes and bits to which no rule gives a value: VISIBLE, UP_OWED, OWNER,
ZONE, WIDTH, HEIGHT and LAST of an UNZONED record, and LAST of a BOUND record whose LAST is absent (log entry 8). -/
def encodeContact (open8 : Nat → Byte) : Contact → List Byte
  | .free => List.replicate 18 0#8
  | .unzoned =>
    [byte (2 + bitValue ((open8 10).getLsbD 0) 2 + bitValue ((open8 10).getLsbD 1) 3), open8 0, open8 1, 0#8, open8 2,
      open8 3, open8 4, open8 5, open8 6, open8 7, open8 8, open8 9] ++ List.replicate 6 0#8
  | .bound b =>
    [byte (1 + bitValue b.visible 2 + bitValue b.upOwed 3 + bitValue b.last.isSome 4),
      byte b.owner.val, byte b.zone.val, 0#8] ++ be16 b.width ++ be16 b.height ++
      (match b.last with
        | some (kx, ky) => be16 kx ++ be16 ky
        | none => [open8 6, open8 7, open8 8, open8 9]) ++
      pack12 b.x0 b.y0 ++ pack12 b.x1 b.y1

/-- How many free bytes a read of a CONTACT record uses up: the eleven of `encodeContact`, used or not. -/
def contactOpenBytes : Nat := 11

/-- How many free bytes a read of a JOB record uses up: the one of `encodeJob`, used or not. -/
def jobOpenBytes : Nat := 1

end Sys2Proof.Machine
end

