-- ==== Sys2Proof/Machine/Spool.lean ====
section
/-! DEFINITION. The spool (chapter 3): holdings, the tight-spool condition, the grant pass, credit limits, returns. -/

namespace Sys2Proof.Machine

/-- Length of a record's block chain; a FREE record has none. -/
def chainLength : Option Job → Nat
  | some j => j.allocation.length
  | none => 0

/-- R40: the total chain length of a kiosk port's live jobs. -/
def State.holdingOf (s : State) (k : KioskId) : Nat :=
  chainLength (s.job (jobIx k 0)) + chainLength (s.job (jobIx k 1)) + chainLength (s.job (jobIx k 2))

/-- R42: C, the larger of TIGHT_CLEAR and TIGHT_SET + 1. -/
def SpoolRecord.effectiveClear (r : SpoolRecord) : Nat := max r.tightClear (r.tightSet + 1)

/-- R42, R43: the condition against the free count as it stands, with the edge's flag. -/
def State.evalTight (s : State) : State :=
  if s.tight then
    if s.spoolRecord.effectiveClear * 64 ≤ s.free.length then
      let t := s.setTight false
      if s.spoolRecord.onExit then t.raise .spoolEvent else t
    else s
  else if s.free.length < s.spoolRecord.tightSet * 64 then
    let t := s.setTight true
    if s.spoolRecord.onEntry then t.raise .spoolEvent else t
  else s

/-- A block joins the tail of the free list (R38), and the condition is evaluated (R42). -/
def State.joinFree (s : State) (b : BlockId) : State := (s.setFree (s.free ++ [b])).evalTight

/-- Blocks join the free list one by one, in the order given (R53). -/
def State.returnBlocks (s : State) (bs : List BlockId) : State := bs.foldl State.joinFree s

/-- R44: 16 blocks, or 2 while the spool is tight. -/
def State.window (s : State) : Nat := if s.tight then 2 else 16

/-- Blocks that hold n bytes. -/
def blocksFor (n : Nat) : Nat := (n + 127) / 128

/-- R39: F plus the chain length. -/
def Job.top (j : Job) : Nat := j.freedBlocks + j.allocation.length

/-- R45: the highest top a job may reach. -/
def Job.topLimit (j : Job) : Nat :=
  if j.declaredLength = 0 then Config.streamTop else blocksFor j.declaredLength

/-- R46. -/
def Job.limitNow (j : Job) : Nat :=
  if j.declaredLength = 0 then min Config.maxOffset (j.top * 128) else min j.declaredLength (j.top * 128)

/-- R45: the record holds a print job that may receive a block (the free list is looked at by the pass). -/
def State.qualifies (s : State) (i : JobId) : Bool :=
  match s.job i with
  | none => false
  | some j =>
    decide (j.kind = .print) && !j.complete && decide (j.allocation.length < s.window) &&
      decide (s.holdingOf (jobKiosk i) < (s.kiosk (jobKiosk i)).quota) && decide (j.top < j.topLimit)

/-- The record n places after the grant pointer, wrapping from 47 to 0. -/
def recordAfter (p : JobId) (n : Nat) : JobId := ⟨(p.val + n) % 48, Nat.mod_lt _ (by decide)⟩

/-- R45: the first qualifying record after GRANT_POINTER, over a full circuit. -/
def State.nextQualifying (s : State) : Option JobId :=
  ((List.range 48).map fun n => recordAfter s.grantPointer (n + 1)).find? fun i => s.qualifies i

/-- R48: a limit that rises hands a CREDIT. -/
def State.creditRise (s : State) (i : JobId) (before after : Nat) (channel : Byte) : State :=
  if before < after then s.handCredit (jobKiosk i) channel (jobSlot i) after else s

/-- A block joins the tail of a job's chain (R39). -/
def Job.lend (j : Job) (b : BlockId) : Job := { j with allocation := j.allocation ++ [b] }

/-- R45, R46: a job that has been granted a block, its limit set from its new top. -/
def Job.granted (j : Job) (b : BlockId) : Job := { j.lend b with creditLimit := (j.lend b).limitNow }

/-- One grant of R45: the block at the head of the free list joins the record's chain, the limit follows (R46), its
CREDIT is handed (R48), GRANT_POINTER moves, and the condition is evaluated (R42). -/
def State.grantTo (s : State) (i : JobId) : State :=
  match s.free, s.job i with
  | b :: rest, some j =>
    ((((s.setFree rest).setJob i (some (j.granted b))).creditRise i j.creditLimit (j.granted b).creditLimit
      j.channel).setGrantPointer i).evalTight
  | _, _ => s

/-- R45: grants one at a time until no record qualifies or the free list is empty (each grant takes one block, so the
free list's length bounds their number). -/
def State.grantLoop (s : State) : Nat → State
  | 0 => s
  | n + 1 =>
    match s.nextQualifying with
    | some i => (s.grantTo i).grantLoop n
    | none => s

/-- R45: one grant pass. -/
def State.grantPass (s : State) : State := s.grantLoop s.free.length

/-- R49, R52: the head block has left the chain; a print job counts it in F. -/
def Job.dropHead (j : Job) : Job :=
  { j with
    allocation := j.allocation.tail,
    freedBlocks := match j.kind with | .print => j.freedBlocks + 1 | .scan => j.freedBlocks }

/-- R49, R52: the head block of a job's chain leaves it and joins the free list. -/
def State.freeHead (s : State) (i : JobId) : State :=
  match s.job i with
  | some j =>
    match j.allocation with
    | b :: _ => (s.setJob i (some j.dropHead)).joinFree b
    | [] => s
  | none => s

/-- R50: chain blocks that a job closed at RECEIVED keeps. -/
def Job.keptAtClose (j : Job) : Nat := blocksFor j.received - j.freedBlocks

/-- R50: a job closed at RECEIVED. -/
def Job.closed (j : Job) : Job :=
  { j with
    declaredLength := j.received, complete := true, creditLimit := j.received,
    allocation := j.allocation.take j.keptAtClose }

/-- R50: what JOB_CLOSE of a stream job does to the spool, the grant pass apart: the length becomes RECEIVED, the
surplus leaves the tail in chain order, and then the block of a final byte already handed is freed (this order of the
two is DESIGN CHOICE, log entry 31). -/
def State.closeChain (s : State) (i : JobId) : State :=
  match s.job i with
  | none => s
  | some j =>
    let t := (s.setJob i (some j.closed)).returnBlocks (j.allocation.drop j.keptAtClose)
    if j.sent = j.received then t.freeHead i else t

/-- R51: the spool lends a block to a scan job; none when it refuses. -/
def State.allocateScan (s : State) (i : JobId) : Option State :=
  match s.free, s.job i with
  | b :: rest, some j =>
    if s.holdingOf (jobKiosk i) < (s.kiosk (jobKiosk i)).quota ∧ j.allocation.length < j.maxBlocks then
      some ((s.setFree rest).setJob i (some (j.lend b))).evalTight
    else none
  | _, _ => none

end Sys2Proof.Machine
end

