-- ==== Sys2Proof/Machine/Egress.lean ====
section
/-! DEFINITION. Kiosk egress (chapter 8): the touch queue's insertion rules, frame building with the CRC (R141), the
line's cuts, and placing owed UPs. The commands of the transmit line stand in Transmit.lean. -/

namespace Sys2Proof.Machine

/-! ### CRC and frames (R141, R150) -/

/-- One data bit of R141: shift toward the top, combine with 0x1021 when the top bit and the data bit differ. -/
def crcBit (reg : BitVec 16) (bit : Bool) : BitVec 16 :=
  if reg.getLsbD 15 != bit then (reg <<< 1) ^^^ 0x1021#16 else reg <<< 1

/-- One byte, most significant bit first. -/
def crcByte (reg : BitVec 16) (b : Byte) : BitVec 16 :=
  [7, 6, 5, 4, 3, 2, 1, 0].foldl (fun r i => crcBit r (b.getLsbD i)) reg

/-- The CRC of R141 over a list of bytes. -/
def crc16 (bs : List Byte) : BitVec 16 := bs.foldl crcByte 0xFFFF#16

/-- A frame's bytes from CHANNEL to the last PAYLOAD byte. -/
def frameBody (channel kind tag : Byte) (payload : List Byte) : List Byte :=
  [channel, kind, tag] ++ be16 payload.length ++ payload

/-- A whole frame, its CRC high byte first. -/
def frameBytes (channel kind tag : Byte) (payload : List Byte) : List Byte :=
  frameBody channel kind tag payload ++ be16 (crc16 (frameBody channel kind tag payload)).toNat

/-! ### The transmit pair (R138) -/

/-- R138: the ten bits of a kiosk link character in order on the line, true for mark: start, data from bit 0 up, stop. -/
def linkCharBits (c : Byte) : List Bool := [false] ++ (List.range 8).map c.getLsbD ++ [true]

/-- R133, R138: the characters of the frame on the transmit pair, each by its bits. -/
def KioskPort.sentChars (p : KioskPort) : List (List Bool) := p.onLine.map linkCharBits

/-- R133, R136, R138: the level of the transmit pair outside the bits of a character, true for mark: space through a
break echo, mark between characters and frames, in the gap and on an idle line. -/
def KioskPort.restLevel (p : KioskPort) : Bool := decide (p.line ≠ .brk)

/-! ### Touch queue (R130–R132) -/

/-- What the egress reports back of an event (section 8.3). -/
inductive TouchOutcome where
  | joined
  | discarded
  | owed
deriving DecidableEq, Repr

/-- The newest entry of a contact is a MOVE. -/
def newestIsMove (q : List TouchEntry) (c : ContactIx) : Bool :=
  match (q.filter fun e => e.contact == c).getLast? with
  | some e => e.kind == .move
  | none => false

/-- The newest entry of the contact takes new coordinates in place; the list is given newest first. -/
def coalesceNewest (c : ContactIx) (kx ky : Nat) : List TouchEntry → List TouchEntry
  | [] => []
  | e :: rest => if e.contact = c then { e with kx := kx, ky := ky } :: rest else e :: coalesceNewest c kx ky rest

/-- The newest MOVE leaves; the list is given newest first. -/
def dropNewestMove : List TouchEntry → List TouchEntry
  | [] => []
  | e :: rest => if e.kind = .move then rest else e :: dropNewestMove rest

/-- R130: the queue after the insertion, the outcome, and whether R131 counts an overrun. -/
def insertTouch (q : List TouchEntry) (e : TouchEntry) : List TouchEntry × TouchOutcome × Bool :=
  if e.kind = .move ∧ newestIsMove q e.contact then
    ((coalesceNewest e.contact e.kx e.ky q.reverse).reverse, .joined, false)
  else if q.length < Config.touchCap then (q ++ [e], .joined, false)
  else if e.kind = .move then (q, .discarded, true)
  else if q.any (fun x => x.kind == .move) then ((dropNewestMove q.reverse).reverse ++ [e], .joined, true)
  else if e.kind = .down then (q, .discarded, true)
  else (q, .owed, true)

/-- R131: a touch overrun on Kn. -/
def State.overrun (s : State) (k : KioskId) : State := (s.latchKiosk k .touchOverrun).raise .touchOverrun

/-- R130, R131: an event handed to Kn's touch queue. -/
def State.handTouch (s : State) (k : KioskId) (e : TouchEntry) : State × TouchOutcome :=
  let r := insertTouch (s.kiosk k).touch e
  let t := s.modKiosk k fun p => { p with touch := r.1 }
  (if r.2.2 then t.overrun k else t, r.2.1)

/-- A contact record owes its UP to Kn. -/
def owesTo (k : KioskId) : Contact → Bool
  | .bound b => b.upOwed && (b.owner == k)
  | _ => false

/-- The UP of a binding, at its LAST_KX and LAST_KY. -/
def Binding.upEntry (b : Binding) (c : ContactIx) : TouchEntry :=
  { contact := c, zone := b.zone, kind := .up, kx := (b.last.getD (0, 0)).1, ky := (b.last.getD (0, 0)).2 }

/-- R132: owed UPs join Kn's queue in ascending contact record index while it has room. -/
def State.placeOwed (s : State) (k : KioskId) : List ContactIx → State
  | [] => s
  | c :: rest =>
    match s.contact c with
    | .bound b =>
      if b.upOwed ∧ b.owner = k ∧ (s.kiosk k).touch.length < Config.touchCap then
        ((s.modKiosk k fun p => { p with touch := p.touch ++ [b.upEntry c] }).setContact c .free).placeOwed k rest
      else s.placeOwed k rest
    | _ => s.placeOwed k rest

/-! ### Cuts (R137) -/

/-- The values of R124 that POR, SWITCH_RESET, PORT_RESET and isolation give an egress; the frame on the line is cut
and a pending echo cleared. -/
def KioskPort.clearEgress (p : KioskPort) : KioskPort :=
  { p with
    control := [], touch := [], replyHeld := false, line := .idle, source := .none, scanLast := 2, onLine := [],
    afterFrame := .nothing, echoPending := false }

/-! ### Scan blocks offered for delivery (R83) -/

/-- Bytes stored for a scan job and not yet delivered. -/
def Job.undelivered (j : Job) : Nat := j.received - j.sent

/-- Bytes the head block of a scan chain holds. -/
def Job.headFill (j : Job) : Nat := min Config.blockBytes j.undelivered

/-- Bytes the tail block of a scan chain holds. -/
def Job.tailFill (j : Job) : Nat := j.undelivered - (j.allocation.length - 1) * Config.blockBytes

/-- R83: the head block holds 128 bytes, or it is the tail block and reception has ended. -/
def Job.deliverable (j : Job) (phase : Phase) : Bool :=
  match j.allocation with
  | [] => false
  | [_] => decide (128 ≤ j.undelivered) || decide (phase = .delivery)
  | _ => decide (128 ≤ j.undelivered)

/-- R135: the slot's job may be chosen. -/
def State.scanOffer (s : State) (k : KioskId) (slot : SlotId) : Bool :=
  match s.job (jobIx k slot) with
  | some j =>
    decide (j.kind = .scan) && decide (j.state = .active) && j.held.isNone &&
      j.deliverable (s.device j.device).scan.phase
  | none => false

/-- R135: the slots after SCAN_LAST, in rotation. -/
def scanOrder (last : SlotId) : List SlotId := [last + 1, last + 2, last + 3]

/-- R135: the slot whose SCAN_DATA frame is next. -/
def State.scanChoice (s : State) (k : KioskId) : Option SlotId :=
  (scanOrder (s.kiosk k).scanLast).find? fun t => s.scanOffer k t

end Sys2Proof.Machine
end

