-- ==== Sys2Proof/Machine/Mapper.lean ====
section
/-! DEFINITION. The touch mapper (chapter 7): calibration, orientation, zone search, capture, mapping, contacts. -/

namespace Sys2Proof.Machine

/-! ### Calibration and orientation (R106–R108) -/

/-- R106, step 2: the rounded quotient, toward minus infinity. -/
def calQuotient (raw : Nat) (offset : Int) (gain : Nat) : Int := (((raw : Int) - offset) * gain + 2048) / 4096

/-- R106, step 3: the axis is clamped. -/
def calClamped (raw : Nat) (offset : Int) (gain : Nat) : Bool :=
  decide (calQuotient raw offset gain < 0) || decide (4095 < calQuotient raw offset gain)

/-- R106: the calibrated value of an axis. -/
def calibrate (raw : Nat) (offset : Int) (gain : Nat) : Nat := (max 0 (min (calQuotient raw offset gain) 4095)).toNat

/-- R108: the canvas point of calibrated values. -/
def Panel.orient (p : Panel) (calX calY : Nat) : Nat × Nat :=
  let cx := if p.swap then calY else calX
  let cy := if p.swap then calX else calY
  (if p.mirrorX then 4095 - cx else cx, if p.mirrorY then 4095 - cy else cy)

/-- R106–R108: the canvas point of a report. -/
def Panel.canvas (p : Panel) (x y : Nat) : Nat × Nat :=
  p.orient (calibrate x p.offsetX p.gainX) (calibrate y p.offsetY p.gainY)

/-- R107: a report clamped on either axis counts once, up to 65535. -/
def Panel.countClamp (p : Panel) (x y : Nat) : Panel :=
  if calClamped x p.offsetX p.gainX || calClamped y p.offsetY p.gainY then { p with clamps := min 65535 (p.clamps + 1) }
  else p

/-! ### Zones (R112–R114) -/

/-- R112: the zone contains the panel's canvas point. -/
def Zone.contains (z : Zone) (panel : PanelId) (pt : Nat × Nat) : Bool :=
  z.enabled && decide (z.panel = panel) && decide (z.x0 ≤ pt.1) && decide (pt.1 ≤ z.x1) && decide (z.y0 ≤ pt.2) &&
    decide (pt.2 ≤ z.y1)

/-- R112: the zone found, the lowest index first. -/
def State.searchZone (s : State) (panel : PanelId) (pt : Nat × Nat) : Option ZoneId :=
  allZones.find? fun z => (s.zone z).contains panel pt

/-- R113: the copy a contact record takes; not VISIBLE until its DOWN has joined (R117). -/
def Zone.capture (z : Zone) (ix : ZoneId) : Binding where
  owner := z.kiosk
  zone := ix
  x0 := z.x0
  y0 := z.y0
  x1 := z.x1
  y1 := z.y1
  width := z.width
  height := z.height
  visible := false
  upOwed := false
  last := none

/-- R114, one axis. -/
def mapAxis (c lo hi size : Nat) : Nat :=
  let span := hi - lo
  if span = 0 then 0 else (2 * (max lo (min c hi) - lo) * (size - 1) + span) / (2 * span)

/-- R114: a canvas point in the kiosk coordinates of a captured zone. -/
def Binding.map (b : Binding) (pt : Nat × Nat) : Nat × Nat :=
  (mapAxis pt.1 b.x0 b.x1 b.width, mapAxis pt.2 b.y0 b.y1 b.height)

/-! ### Reports (section 7.7) -/

/-- R117: a fresh DOWN. -/
def State.freshDown (s : State) (c : ContactIx) (pt : Nat × Nat) : State :=
  match s.searchZone (contactPanel c) pt with
  | none => s.setContact c .unzoned
  | some z =>
    let b := (s.zone z).capture z
    if (s.kiosk b.owner).link = .isolated then s.setContact c (.bound b)
    else
      let m := b.map pt
      let r := s.handTouch b.owner { contact := c, zone := z, kind := .down, kx := m.1, ky := m.2 }
      match r.2 with
      | .joined => r.1.setContact c (.bound { b with visible := true, last := some m })
      | _ => r.1.setContact c (.bound b)

/-- R118: the owed UP of the record is offered, and the DOWN is fresh or an overrun. -/
def State.offerOwed (s : State) (c : ContactIx) (b : Binding) (pt : Nat × Nat) : State :=
  let r := s.handTouch b.owner (b.upEntry c)
  match r.2 with
  | .joined => (r.1.setContact c .free).freshDown c pt
  | _ => r.1.overrun b.owner

/-- R118: a DOWN for a BOUND record. -/
def State.downBound (s : State) (c : ContactIx) (b : Binding) (pt : Nat × Nat) : State :=
  if b.upOwed then s.offerOwed c b pt
  else if b.visible then
    let r := s.handTouch b.owner (b.upEntry c)
    match r.2 with
    | .joined => (r.1.setContact c .free).freshDown c pt
    | _ =>
      let b' := { b with upOwed := true }
      (r.1.setContact c (.bound b')).offerOwed c b' pt
  else (s.setContact c .free).freshDown c pt

/-- R115, R119: a MOVE for a BOUND record whose UP is not owed. -/
def State.moveBound (s : State) (c : ContactIx) (b : Binding) (suppress : Bool) (pt : Nat × Nat) : State :=
  let m := b.map pt
  if !b.visible then s
  else if suppress && decide (b.last = some m) then s
  else
    let r := s.handTouch b.owner { contact := c, zone := b.zone, kind := .move, kx := m.1, ky := m.2 }
    match r.2 with
    | .joined => r.1.setContact c (.bound { b with last := some m })
    | _ => r.1

/-- An UP handed for a VISIBLE binding: the record is FREE when it joins, and owes it otherwise (R100, R120). -/
def State.liftBound (s : State) (c : ContactIx) (b : Binding) : State :=
  let r := s.handTouch b.owner (b.upEntry c)
  match r.2 with
  | .joined => r.1.setContact c .free
  | _ => r.1.setContact c (.bound { b with upOwed := true })

/-- R120: an UP for a BOUND record whose UP is not owed. -/
def State.upBound (s : State) (c : ContactIx) (b : Binding) (pt : Nat × Nat) : State :=
  if b.visible then s.liftBound c { b with last := some (b.map pt) } else s.setContact c .free

/-- The table of section 7.7, the report's canvas point given. -/
def State.contactEvent (s : State) (c : ContactIx) (kind : TouchKind) (suppress : Bool) (pt : Nat × Nat) : State :=
  match s.contact c, kind with
  | .free, .down => s.freshDown c pt
  | .free, .move => s
  | .free, .up => s
  | .unzoned, .down => s.freshDown c pt
  | .unzoned, .move => s
  | .unzoned, .up => s.setContact c .free
  | .bound b, .down => s.downBound c b pt
  | .bound b, .move => if b.upOwed then s else s.moveBound c b suppress pt
  | .bound b, .up => if b.upOwed then s else s.upBound c b pt

/-- R107: a report is calibrated, counted and then handled by its contact record. -/
def State.handleReport (s : State) (p : PanelId) (c : Fin 10) (kind : TouchKind) (x y : Nat) : State :=
  (s.modPanel p fun e => e.countClamp x y).contactEvent (contactIx p c) kind (s.panel p).moveSuppress
    ((s.panel p).canvas x y)

/-! ### Release and loss of owners (R100, R121) -/

/-- R100, one contact record. -/
def State.releaseContact (s : State) (c : ContactIx) : State :=
  match s.contact c with
  | .free => s
  | .unzoned => s.setContact c .free
  | .bound b =>
    if b.upOwed then s
    else if b.visible then s.liftBound c b
    else s.setContact c .free

/-- Contact ids of a panel, ascending. -/
def contactIds : List (Fin 10) := List.finRange 10

/-- R100: a panel's ten contacts in ascending contact id. -/
def State.releasePanel (s : State) (p : PanelId) : State :=
  contactIds.foldl (fun t c => t.releaseContact (contactIx p c)) s

/-- R121, one contact record. -/
def Contact.loseOwner (k : KioskId) : Contact → Contact
  | .bound b => if b.owner = k then (if b.upOwed then .free else .bound { b with visible := false }) else .bound b
  | r => r

/-- R121: every contact record that Kn owns. -/
def State.loseOwner (s : State) (k : KioskId) : State := { s with contacts := mapTable (Contact.loseOwner k) s.contacts }

end Sys2Proof.Machine
end

