-- ==== Sys2Proof/Machine/Device.lean ====
section
/-! DEFINITION. A device port's engine and jobs: the transmitter's feed and move (R65, R75, R153), the device break
(R8, R154), job endings (R5–R8, R70), the drain's completion (R16), the scheduler (R12) and what settles them all. -/

namespace Sys2Proof.Machine

/-! ### Lines and device work -/

/-- A pin with its polarity applied (R159). -/
def lineActive (activeLow high : Bool) : Bool := high != activeLow

/-- Live RDY (R159). -/
def DevicePort.rdy (p : DevicePort) : Bool := lineActive p.record.rdyLow p.rdyPin

/-- Live ATN before qualification (R17). -/
def DevicePort.atnLine (p : DevicePort) : Bool := lineActive p.record.atnLow p.atnPin

/-- The HOLD line (R82). -/
def DevicePort.hold (p : DevicePort) : Bool :=
  match p.record.holdMode with
  | .forceActive => true
  | .forceInactive => false
  | .auto => p.scan.flush || (decide (p.scan.phase ≠ .none) && p.scan.watermark)

/-- The level of the HOLD pin (R82, R159). -/
def DevicePort.holdPin (p : DevicePort) : Bool := p.hold != p.record.holdLow

/-- Whether the number of ones in a byte is odd. -/
def oddOnes (b : Byte) : Bool :=
  (((b.getLsbD 0 ^^ b.getLsbD 1) ^^ (b.getLsbD 2 ^^ b.getLsbD 3)) ^^
    ((b.getLsbD 4 ^^ b.getLsbD 5) ^^ (b.getLsbD 6 ^^ b.getLsbD 7)))

/-- R152: the ninth bit that the transmitter sends: the parity bit that makes the ones even or odd, or the address
bit. -/
def Format.ninthBit : Format → TxChar → Option Bool
  | .f8N1, _ => none
  | .f8E1, c => some (oddOnes c.data)
  | .f8O1, c => some (!oddOnes c.data)
  | .multidrop, c => some c.address

/-- R152: the bits of a character in order on the line, true for mark: start, data from bit 0 up, the ninth bit of the
formats that have one, stop. -/
def Format.charBits (f : Format) (c : TxChar) : List Bool :=
  [false] ++ (List.range 8).map c.data.getLsbD ++ (f.ninthBit c).toList ++ [true]

/-- R153: the bits of the character that the shift stage sends on the data output. -/
def DevicePort.sentBits (p : DevicePort) : Option (List Bool) := p.shift.map p.record.format.charBits

/-- R152–R154: the level of the data output outside the bits of a character, true for mark: space while a break runs,
mark between characters, after a reset, and at once when a character or a break is cut. -/
def DevicePort.restLevel (p : DevicePort) : Bool := decide (p.brk ≠ .running)

/-- The port's ACTIVE job, if any (R12: at most one). -/
def State.activeJob (s : State) (d : DeviceId) : Option JobId :=
  (s.device d).queue.find? fun i =>
    match s.job i with
    | some j => decide (j.state = .active)
    | none => false

/-- R8: the ACTIVE job, the flush and the break taken together. -/
def State.hasWork (s : State) (d : DeviceId) : Bool :=
  (s.activeJob d).isSome || (s.device d).scan.flush || decide ((s.device d).brk ≠ .none)

/-! ### Scan engine's suspensions and watermark (R79, R81) -/

/-- R81: the effective clear level. -/
def DeviceRecord.clearLevel (r : DeviceRecord) : Nat := if r.holdClear < r.holdSet then r.holdClear else r.holdSet - 1

/-- R81: WATERMARK against a chain length. -/
def evalWatermark (r : DeviceRecord) (mark : Bool) (len : Nat) : Bool :=
  if r.holdSet ≤ len then true else if len ≤ r.clearLevel then false else mark

/-- R79: what suspends a GAP count. -/
def DevicePort.gapHeld (p : DevicePort) (paused : Bool) : Bool :=
  paused || (decide (p.record.holdMode = .auto) && p.scan.watermark)

/-- R79: a started GAP count runs or is suspended; a suspension that ends restarts it. -/
def DevicePort.reviseGap (p : DevicePort) (paused : Bool) : DevicePort :=
  if p.scan.gap = .stopped then p
  else { p with scan := { p.scan with gap := if p.gapHeld paused then .suspended else .running p.record.endGap } }

/-- R81: the watermark of the job's port follows its chain, while the engine holds the job. -/
def State.evalWatermark (s : State) (i : JobId) : State :=
  match s.job i with
  | none => s
  | some j =>
    s.modDevice j.device fun p =>
      if p.scan.phase = .none then p
      else
        ({ p with scan := { p.scan with
            watermark := Machine.evalWatermark p.record p.scan.watermark j.allocation.length } }).reviseGap j.paused

/-! ### What an ending leaves on the device side (R8, R70, R85) -/

/-- R71: reasons that owe no reset break. -/
def EndReason.owesNoBreak : EndReason → Bool
  | .done | .failedDeviceReset => true
  | _ => false

/-- R70, R8, R71: the device side of the ending of an ACTIVE print job. -/
def DevicePort.stopPrint (reason : EndReason) (p : DevicePort) : DevicePort :=
  { p with
    holding := none, underrun := .stopped, faultLimit := .stopped,
    brk := if p.record.resetBreak && !reason.owesNoBreak then .owed else p.brk }

/-- R76, R81, R85, R86: the scan engine lets an ACTIVE scan job go; a flush begins when reception had not ended. -/
def DevicePort.letScanGo (reason : EndReason) (p : DevicePort) : DevicePort :=
  { p with
    holding := none, faultLimit := .stopped,
    scan := { phase := .none, commandLeft := 0, firstByte := .stopped, gap := .stopped, watermark := false,
              flush := p.scan.flush || (decide (p.scan.phase = .reception) && decide (reason ≠ .failedDeviceReset)) } }

/-- R5, step 2: device work for an ACTIVE job stops. -/
def DevicePort.stopWork (kind : JobKind) (reason : EndReason) (p : DevicePort) : DevicePort :=
  match kind with
  | .print => p.stopPrint reason
  | .scan => p.letScanGo reason

/-- R6, R70: SENT at the ending: a print byte withdrawn from the holding stage is taken back. -/
def Job.countAtEnd (j : Job) (p : DevicePort) : Nat :=
  match j.kind, j.state with
  | .print, .active => if p.holding.isSome then j.sent - 1 else j.sent
  | _, _ => j.sent

/-- R5, steps 1 and 2, on the job's device port. -/
def DevicePort.dropJob (i : JobId) (j : Job) (reason : EndReason) (p : DevicePort) : DevicePort :=
  let q := { p with queue := p.queue.filter fun x => x != i }
  if j.state = .active then q.stopWork j.kind reason else q

/-- R5: the ending of a live job, its grant pass (R53) after it (log entry 11). A FREE record has nothing to end. -/
def State.endJob (s : State) (i : JobId) (reason : EndReason) : State :=
  match s.job i with
  | none => s
  | some j =>
    let count := j.countAtEnd (s.device j.device)
    let a := (s.modDevice j.device (DevicePort.dropJob i j reason)).setJob i none
    let b := a.returnBlocks j.allocation
    let c := if reason = .ownerLost then b
      else b.handJobEnd (jobKiosk i) j.channel (jobSlot i) reason count j.lineErrors
    c.grantPass

/-- R7: a SCAN_DATA frame of the job is on its kiosk line. -/
def State.frameOnLine (s : State) (i : JobId) : Bool :=
  decide ((s.kiosk (jobKiosk i)).line = .frame) && decide ((s.kiosk (jobKiosk i)).source = .scan (jobSlot i))

/-- R7: an ending that waits for the frame on the line is held, with its device side done (R85); any other completes.
A second cause changes nothing. -/
def State.decideEnd (s : State) (i : JobId) (reason : EndReason) : State :=
  match s.job i with
  | none => s
  | some j =>
    if j.held.isSome then s
    else if j.kind = .scan ∧ j.state = .active ∧ s.frameOnLine i then
      (s.modDevice j.device (DevicePort.letScanGo reason)).setJob i (some { j with held := some reason, paused := false })
    else s.endJob i reason

/-! ### Break, drain, scheduler -/

/-- The transmitter is idle: both stages empty (R153). -/
def DevicePort.txIdle (p : DevicePort) : Bool := p.holding.isNone && p.shift.isNone

/-- R8, R71, R154, R155: an owed reset break starts on an idle transmitter of an ONLINE or DRAINING port, a requested
one on an empty shift stage. -/
def DevicePort.startBreak (p : DevicePort) : DevicePort :=
  match p.brk with
  | .owed => if (p.service = .online ∨ p.service = .draining) ∧ p.txIdle then { p with brk := .running } else p
  | .requested => if p.shift.isNone then { p with brk := .running } else p
  | _ => p

/-- R16: device work has ended on a port that drains. -/
def State.completeDrain (s : State) (d : DeviceId) : State :=
  if s.hasWork d then s
  else
    match (s.device d).service with
    | .draining => (s.modDevice d fun p => { p with service := .offline }).raise .deviceDrained
    | .fault .draining => (s.modDevice d fun p => { p with service := .fault .offline }).raise .deviceDrained
    | _ => s

/-- PRIORITY of a READY job. -/
def State.readyPriority (s : State) (i : JobId) : Option Nat :=
  match s.job i with
  | some j => if j.state = .ready then some j.priority.toNat else none
  | none => none

/-- R12: the READY job with the lowest PRIORITY value, nearest the head among equals. -/
def State.pickReady (s : State) : List JobId → Option (JobId × Nat)
  | [] => none
  | i :: rest =>
    match s.readyPriority i, s.pickReady rest with
    | some p, some (i', p') => if p ≤ p' then some (i, p) else some (i', p')
    | some p, none => some (i, p)
    | none, r => r

/-- R12: the four conditions under which the scheduler runs. -/
def State.mayStart (s : State) (d : DeviceId) : Bool :=
  decide ((s.device d).service = .online) && !s.hasWork d

/-- R64, R75: the engine of the job's kind takes it. -/
def DevicePort.takeJob (j : Job) (p : DevicePort) : DevicePort :=
  match j.kind with
  | .print => { p with underrun := .stopped }
  | .scan =>
    { p with scan := { p.scan with
        phase := .reception, commandLeft := j.command.length, firstByte := .running p.record.firstByteTimeout,
        gap := .stopped, watermark := false } }

/-- R12: a job becomes ACTIVE. -/
def State.activate (s : State) (i : JobId) : State :=
  match s.job i with
  | none => s
  | some j => (s.modDevice j.device (DevicePort.takeJob j)).setJob i (some { j with state := .active })

/-- R12: one run of the scheduler. -/
def State.schedule (s : State) (d : DeviceId) : State :=
  if s.mayStart d then
    match s.pickReady (s.device d).queue with
    | some (i, _) => s.activate i
    | none => s
  else s

/-! ### Transmitter -/

/-- R49: the byte at SENT is the last of the chain's head block. -/
def Job.lastOfBlock (j : Job) : Bool :=
  decide (j.sent = j.freedBlocks * 128 + 127) || (j.complete && decide (j.sent + 1 = j.declaredLength))

/-- R65: the print engine hands the byte at SENT, and frees its block when it is the block's last. -/
def State.feedPrint (s : State) (d : DeviceId) (i : JobId) (j : Job) : State :=
  match j.allocation with
  | [] => s
  | b :: _ =>
    if j.paused = false ∧ j.sent < j.received then
      let t := (s.modDevice d fun p => { p with holding := some { data := s.readBlock b j.sent, address := false } }).setJob
        i (some { j with sent := j.sent + 1 })
      if j.lastOfBlock then (t.freeHead i).grantPass else t
    else s

/-- R75, R76: the scan engine hands the next COMMAND byte. -/
def State.feedCommand (s : State) (d : DeviceId) (j : Job) : State :=
  let left := (s.device d).scan.commandLeft
  if j.paused = false ∧ 0 < left then
    s.modDevice d fun p =>
      { p with holding := some { data := j.command.getD (j.command.length - left) 0#8, address := false },
               scan := { p.scan with commandLeft := left - 1 } }
  else s

/-- R65, R75: the port's ACTIVE job feeds an empty holding stage. -/
def State.feed (s : State) (d : DeviceId) : State :=
  if (s.device d).holding.isSome then s
  else
    match s.activeJob d with
    | none => s
    | some i =>
      match s.job i with
      | none => s
      | some j =>
        match j.kind with
        | .print => s.feedPrint d i j
        | .scan => s.feedCommand d j

/-- R153, R154: the waiting byte moves when the shift stage is empty, RDY is active and no break runs. -/
def DevicePort.moveByte (p : DevicePort) : DevicePort :=
  if p.shift.isNone ∧ p.holding.isSome ∧ p.rdy ∧ p.brk ≠ .running then { p with shift := p.holding, holding := none }
  else p

/-- R20, R69, R76: the port's ACTIVE job is PAUSED. -/
def State.jobPaused (s : State) (d : DeviceId) : Bool :=
  match (s.activeJob d).bind s.job with
  | some j => j.paused
  | none => false

/-- R153 with R20, R69, R76: the waiting byte moves, but for a PAUSED job's, which stays in the holding stage. -/
def State.moveTx (s : State) (d : DeviceId) : State := if s.jobPaused d then s else s.modDevice d DevicePort.moveByte

/-- R66: the port's ACTIVE print job is short of data. -/
def State.shortOfData (s : State) (d : DeviceId) : Bool :=
  match s.activeJob d with
  | none => false
  | some i =>
    match s.job i with
    | none => false
    | some j => decide (j.kind = .print) && !j.paused && !j.complete && decide (j.sent = j.received)

/-- R66: the underrun timer starts when the job becomes short of data and stops when it no longer is. -/
def State.updateUnderrun (s : State) (d : DeviceId) : State :=
  if s.shortOfData d then
    s.modDevice d fun p =>
      if p.underrun = .stopped then { p with underrun := .running p.record.underrunTimeout } else p
  else s.modDevice d fun p => { p with underrun := .stopped }

/-- R65, R153: hand, move, hand again. -/
def State.pump (s : State) (d : DeviceId) : State :=
  (((s.feed d).moveTx d).feed d).updateUnderrun d

/-- R64, R67: the ACTIVE print job of the port that is DONE now: its length is 0, or it is finishing and its final byte
has left the shift stage. -/
def State.finishedPrint (s : State) (d : DeviceId) : Option JobId :=
  match s.activeJob d with
  | none => none
  | some i =>
    match s.job i with
    | none => none
    | some j =>
      if j.kind = .print ∧ j.complete = true ∧ j.sent = j.declaredLength ∧
          (j.declaredLength = 0 ∨ (s.device d).txIdle = true) then some i
      else none

/-- One round of what follows at once on a device port after any change to it: the break (R8), the drain (R16), the
scheduler (R12) and the transmitter (R65, R75, R153). -/
def State.settleRound (s : State) (d : DeviceId) : State :=
  (((s.modDevice d DevicePort.startBreak).completeDrain d).schedule d).pump d

/-- Rounds until nothing more follows: a round whose print job is DONE ends it (R64, R67), and another follows. -/
def State.settleLoop (s : State) (d : DeviceId) : Nat → State
  | 0 => s
  | n + 1 =>
    ((s.settleRound d).finishedPrint d).elim (s.settleRound d) fun i =>
      ((s.settleRound d).endJob i .done).settleLoop d n

/-- Each round but the last ends a job of the port's queue, so its length bounds the rounds. -/
def State.settle (s : State) (d : DeviceId) : State := s.settleLoop d ((s.device d).queue.length + 1)

/-- The ports settle one after another. -/
def State.settleAll (s : State) (ds : List DeviceId) : State := ds.foldl State.settle s

end Sys2Proof.Machine
end

