-- ==== Sys2Proof/Machine/Poller.lean ====
section
/-! DEFINITION. The touch poller (chapter 6): rounds, polls, replies, reports, misses and presence. -/

namespace Sys2Proof.Machine

/-! ### Rounds (R92–R94) -/

/-- R92: the enabled panels that name the port. -/
def State.enabledPanels (s : State) (d : DeviceId) : List PanelId :=
  allPanels.filter fun p => (s.panel p).enabled && decide ((s.panel p).device = d)

/-- The panels whose DEVICE is the port, enabled or not. -/
def State.namedPanels (s : State) (d : DeviceId) : List PanelId :=
  allPanels.filter fun p => decide ((s.panel p).device = d)

/-- R92: the panels the port polls. -/
def State.polledPanels (s : State) (d : DeviceId) : List PanelId :=
  if (s.device d).record.cls = .touch ∧ (s.device d).service = .online then
    if (s.device d).record.format = .multidrop then s.enabledPanels d else (s.enabledPanels d).take 1
  else []

/-- The poller of a port changed. -/
def State.modPoller (s : State) (d : DeviceId) (f : Poller → Poller) : State :=
  s.modDevice d fun p => { p with poller := f p.poller }

/-- STEP of CURRENT changed. -/
def State.setStep (s : State) (d : DeviceId) (step : PollStep) : State :=
  s.modPoller d fun q => { q with current := q.current.map fun c => (c.1, step) }

/-- R94: the poll character of a panel. -/
def State.pollChar (s : State) (d : DeviceId) (p : PanelId) : TxChar :=
  { data := (s.panel p).address, address := decide ((s.device d).record.format = .multidrop) }

/-- R94: the poll of a panel begins and its character is handed to the holding stage. -/
def State.beginPoll (s : State) (d : DeviceId) (p : PanelId) (rest : List PanelId) : State :=
  ((s.modPoller d fun q => { q with pending := rest, current := some (p, .sending) }).modDevice d fun port =>
    { port with holding := some (s.pollChar d p) }).settle d

/-- R93: a round starts; one with nothing to poll ends at once. -/
def State.startRound (s : State) (d : DeviceId) : State :=
  let interval := Timer.running (s.device d).record.pollInterval
  match s.polledPanels d with
  | [] => s.modPoller d fun q =>
      { q with running := false, pending := [], current := none, roundDue := false, interval := interval }
  | p :: rest =>
    (s.modPoller d fun q => { q with running := true, roundDue := false, interval := interval }).beginPoll d p rest

/-- R93, R96: the poll of CURRENT has ended and the round advances. -/
def State.advanceRound (s : State) (d : DeviceId) : State :=
  match (s.device d).poller.pending with
  | p :: rest => s.beginPoll d p rest
  | [] =>
    let t := s.modPoller d fun q => { q with running := false, current := none }
    if (s.device d).poller.roundDue then t.startRound d else t

/-- R101: a round is abandoned; a poll character in the holding stage is withdrawn. -/
def DevicePort.abandonRound (p : DevicePort) : DevicePort := { p with holding := none, poller := Poller.idle }

/-- R102: a panel whose entry is written leaves the round of the port it named. -/
def DevicePort.removeFromRound (panel : PanelId) (p : DevicePort) : DevicePort :=
  let q := { p with poller := { p.poller with pending := p.poller.pending.filter fun x => x != panel } }
  match q.poller.current with
  | some (c, step) =>
    if c = panel then
      match step with
      | .sending => { q with holding := none, poller := { q.poller with current := some (c, .settling false) } }
      | .awaiting _ => { q with poller := { q.poller with current := some (c, .settling false) } }
      | .receiving _ => { q with poller := { q.poller with current := some (c, .settling false) } }
      | .settling _ => q
    else q
  | none => q

/-! ### Misses and presence (R98, R99) -/

/-- R98: a miss of a panel. -/
def State.miss (s : State) (p : PanelId) : State :=
  let run := min 8 ((s.panel p).missRun + 1)
  let t := s.modPanel p fun e => { e with missRun := run }
  if run = 8 ∧ (s.panel p).presence ≠ .absent then
    ((t.modPanel p fun e => { e with presence := .absent }).raise .panelAbsent).releasePanel p
  else t

/-- R99: a good reply of a panel. -/
def State.goodReply (s : State) (p : PanelId) : State :=
  let t := s.modPanel p fun e => { e with missRun := 0, presence := .present }
  if (s.panel p).presence = .absent then t.raise .panelPresent else t

/-! ### Replies and reports (R95, R97) -/

/-- EVENT of a report. -/
def eventOfCode : Nat → Option TouchKind
  | 1 => some .down
  | 2 => some .move
  | 3 => some .up
  | _ => none

/-- R97: a report that is kept, by EVENT, CONTACT, X and Y (layout of R150). -/
def parseReport (r : List Byte) : Option (TouchKind × Fin 10 × Nat × Nat) :=
  if (byteAt r 0 + byteAt r 1 + byteAt r 2 + byteAt r 3 + byteAt r 4) % 256 = 0xFF then
    match eventOfCode (byteAt r 0 / 16), toFin 10 (byteAt r 0 % 16) with
    | some e, some c => some (e, c, byteAt r 1 * 16 + byteAt r 2 / 16, byteAt r 2 % 16 * 256 + byteAt r 3)
    | _, _ => none
  else none

/-- R97: one report is rejected or handed to the mapper. -/
def State.takeReport (s : State) (p : PanelId) (r : List Byte) : State :=
  match parseReport r with
  | none => s.latchPanel p .reportBad
  | some (e, c, x, y) => s.handleReport p c e x y

/-- R97: `n` reports in reply order. -/
def State.takeReports (s : State) (p : PanelId) (bytes : List Byte) : Nat → State
  | 0 => s
  | n + 1 => (s.takeReport p (bytes.take 5)).takeReports p (bytes.drop 5) n

/-- R95: a malformed reply is a miss that latches REPLY_MALFORMED; its reports are discarded. -/
def State.malformedReply (s : State) (d : DeviceId) (p : PanelId) : State :=
  ((s.setStep d (.settling false)).latchPanel p .replyMalformed).miss p

/-- R95: the next character of a reply, the bytes before it given. -/
def State.takeReplyByte (s : State) (d : DeviceId) (p : PanelId) (before : List Byte) (data : Byte) (address : Bool) :
    State :=
  let bytes := before ++ [data]
  if address then s.malformedReply d p
  else if 8 < byteAt bytes 0 then s.malformedReply d p
  else if bytes.length = 1 + 5 * byteAt bytes 0 then
    ((s.setStep d (.settling true)).goodReply p).takeReports p (bytes.drop 1) (byteAt bytes 0)
  else s.setStep d (.receiving bytes)

/-- R94–R96: a character completed on an ONLINE touch port; `address` only on a multidrop port. -/
def State.touchChar (s : State) (d : DeviceId) (data : Byte) (address : Bool) : State :=
  match (s.device d).poller.current with
  | none => s.latchDevice d .unsolicited
  | some (_, .sending) => s.latchDevice d .unsolicited
  | some (p, .awaiting _) => s.takeReplyByte d p [] data address
  | some (p, .receiving before) => s.takeReplyByte d p before data address
  | some (_, .settling latches) => if latches then s.latchDevice d .unsolicited else s

/-! ### Leaving ONLINE, device writes and resets (R101, R103) -/

/-- The contacts of panels released, panel after panel. -/
def State.releasePanels (s : State) (ps : List PanelId) : State := ps.foldl State.releasePanel s

/-- R101: a touch port leaves ONLINE by DEVICE_DRAIN. -/
def State.leaveOnline (s : State) (d : DeviceId) : State :=
  ((s.modDevice d fun p => { p.abandonRound with service := .offline }).releasePanels (s.polledPanels d))

/-- R103: PRESENCE UNKNOWN and MISS_RUN 0. -/
def Panel.restart (p : Panel) : Panel := { p with presence := .unknown, missRun := 0 }

/-- R103: a panel is released and restarted. -/
def State.restartPanel (s : State) (p : PanelId) : State := (s.releasePanel p).modPanel p Panel.restart

/-- R103: the panels that name a port are released and restarted, in ascending index. -/
def State.restartPanels (s : State) (ps : List PanelId) : State := ps.foldl State.restartPanel s

/-! ### Commands -/

/-- POLL_INTERVAL_EXPIRY (R93). The timer goes on running (log entry 19). -/
def execPollIntervalExpiry (d : DeviceId) (s : State) : Host.Outcome State Fault Refusal :=
  .next <|
    match (s.device d).poller.interval with
    | .running _ =>
      if (s.device d).poller.running then s.modPoller d fun q => { q with roundDue := true } else s.startRound d
    | _ => s

/-- REPLY_TIMEOUT_EXPIRY (R94): a miss by timeout. -/
def execReplyTimeoutExpiry (d : DeviceId) (s : State) : Host.Outcome State Fault Refusal :=
  .next <|
    match (s.device d).poller.current with
    | some (p, .awaiting _) => (s.setStep d (.settling true)).miss p
    | _ => s

/-- REPLY_IDLE_LIMIT (R95): the reply is malformed. The idle time does not run while the line is held (R157). -/
def execReplyIdleLimit (d : DeviceId) (s : State) : Host.Outcome State Fault Refusal :=
  .next <|
    match (s.device d).poller.current with
    | some (p, .receiving _) => if (s.device d).lineHeld then s else s.malformedReply d p
    | _ => s

/-- SETTLING_END (R96): the poll of CURRENT has ended. -/
def execSettlingEnd (d : DeviceId) (s : State) : Host.Outcome State Fault Refusal :=
  .next <|
    match (s.device d).poller.current with
    | some (_, .settling _) => if (s.device d).lineHeld then s else s.advanceRound d
    | _ => s

end Sys2Proof.Machine
end

