-- ==== Sys2Proof/Machine/Service.lean ====
section
/-! DEFINITION. Service states of a device port (section 1.6), its engines' timers and its lines: FAULT entry and exit
(R18–R20), ATN (R17), wake (R21), the scan engine's reception (R77–R80), and the commands of the device side. -/

namespace Sys2Proof.Machine

/-! ### FAULT (R18–R20, R87) -/

/-- R18, R87: the ACTIVE job still has device-side work. -/
def Job.pausable (j : Job) (phase : Phase) : Bool :=
  match j.kind with
  | .print => true
  | .scan => decide (phase = .reception)

/-- R20, R87: the device side of a pause: FAULT_LIMIT starts, the scan engine's running timers are suspended. -/
def DevicePort.pause (p : DevicePort) : DevicePort :=
  { p with
    faultLimit := .running p.record.faultLimit, underrun := .stopped,
    scan := { p.scan with
      firstByte := if p.scan.firstByte = .stopped then Timer.stopped else Timer.suspended,
      gap := if p.scan.gap = .stopped then Timer.stopped else Timer.suspended } }

/-- R18: a printer or scanner port enters FAULT from the state given as its return target. -/
def State.enterFault (s : State) (d : DeviceId) (target : ReturnTarget) : State :=
  let t := (s.modDevice d fun p => { p with service := .fault target }).raise .deviceFault
  match t.activeJob d with
  | none => t
  | some i =>
    match t.job i with
    | none => t
    | some j =>
      if j.pausable (t.device d).scan.phase then
        (t.modDevice d DevicePort.pause).setJob i (some { j with paused := true })
      else t

/-- R19, R20: the device side of the end of a pause: FAULT_LIMIT stops, suspended timers restart from full length. -/
def DevicePort.unpause (p : DevicePort) : DevicePort :=
  DevicePort.reviseGap
    { p with
      faultLimit := .stopped,
      scan := { p.scan with
        firstByte :=
          if p.scan.firstByte = Timer.suspended then Timer.running p.record.firstByteTimeout else p.scan.firstByte } }
    false

/-- The service state that a return target names. -/
def ReturnTarget.state : ReturnTarget → ServiceState
  | .online => .online
  | .draining => .draining
  | .offline => .offline

/-- R19: a port in FAULT goes to its return target. -/
def State.leaveFault (s : State) (d : DeviceId) (target : ReturnTarget) : State :=
  let t := s.modDevice d fun p => { p.unpause with service := target.state }
  match t.activeJob d with
  | none => t.settle d
  | some i => (t.modJob i fun j => { j with paused := false }).settle d

/-- R15, R18, R21, R93: a port goes from OFFLINE to ONLINE. -/
def State.becomeOnline (s : State) (d : DeviceId) : State :=
  let t := s.modDevice d fun p => { p with service := .online }
  if (s.device d).record.cls = .touch then t.startRound d
  else if (s.device d).atn then t.enterFault d .online
  else t.settle d

/-! ### ATN qualification (R17) -/

/-- R18, R19, R93: the qualified ATN level takes a new value. -/
def State.qualify (s : State) (d : DeviceId) (level : Bool) : State :=
  let t := s.modDevice d fun p => { p with atn := level, blanking := .stopped }
  match (s.device d).service, level with
  | .online, true =>
    if (s.device d).record.cls = .touch then
      if (s.device d).poller.running then t else t.startRound d
    else t.enterFault d .online
  | .draining, true => if (s.device d).record.cls = .touch then t else t.enterFault d .draining
  | .fault target, false => t.leaveFault d target
  | _, _ => t

/-- ATN_BLANKING in ms, by its code. -/
def blankingMs (code : Fin 4) : Nat :=
  match code with
  | 0 => 0
  | 1 => 2
  | 2 => 8
  | 3 => 32

/-- R17: the qualified level restarts at INACTIVE; an active line starts a blanking period at once, and with
ATN_BLANKING 0 it is qualified at once. The service state is OFFLINE or DISABLED wherever this is used. -/
def DevicePort.restartAtn (p : DevicePort) : DevicePort :=
  if p.atnLine then
    if blankingMs p.record.atnBlanking = 0 then { p with atn := true, blanking := .stopped }
    else { p with atn := false, blanking := .running (blankingMs p.record.atnBlanking) }
  else { p with atn := false, blanking := .stopped }

/-- R17: the ATN line has the level it now has; a blanking period starts, goes on or is cancelled. -/
def State.followAtn (s : State) (d : DeviceId) : State :=
  let p := s.device d
  if p.atnLine = p.atn then s.modDevice d fun q => { q with blanking := .stopped }
  else if blankingMs p.record.atnBlanking = 0 then s.qualify d p.atnLine
  else
    match p.blanking with
    | .stopped => s.modDevice d fun q => { q with blanking := .running (blankingMs p.record.atnBlanking) }
    | _ => s

/-! ### Service state after a reset or a device write -/

/-- R13, R22, R24: OFFLINE, or DISABLED with class UNUSED. -/
def DeviceRecord.restState (r : DeviceRecord) : ServiceState := if r.cls = .unused then .disabled else .offline

/-- R160: what DEVICE_RESET and SWITCH_RESET do to the engine of a port, whose record, queue, cause set and pins stay:
stages, break and flush cleared, timers stopped, the receiver afresh, the service state at rest, ATN restarted. -/
def DevicePort.resetEngine (p : DevicePort) : DevicePort :=
  DevicePort.restartAtn
    { p with
      service := p.record.restState, holding := none, shift := none, brk := .none, lineHeld := false,
      underrun := .stopped, faultLimit := .stopped, scan := ScanEngine.idle, poller := Poller.idle }

/-! ### Scan reception (R77–R80, R84) -/

/-- R84: a scan job in DELIVERY whose chain is empty ends. -/
def State.endIfDelivered (s : State) (i : JobId) : State :=
  match s.job i with
  | none => s
  | some j =>
    if (s.device j.device).scan.phase = .delivery ∧ j.allocation = [] then
      s.endJob i (if j.truncated then .doneTruncated else .done)
    else s

/-- R80: the device side of a truncation stop. -/
def DevicePort.truncationStop (p : DevicePort) : DevicePort :=
  { p with
    faultLimit := .stopped,
    scan := { p.scan with phase := .delivery, firstByte := .stopped, gap := .stopped, flush := true } }

/-- R80: the job has been truncated; it has no device-side work left to pause. -/
def Job.cutShort (j : Job) : Job := { j with truncated := true, paused := false }

/-- R51, R80: a character cannot be stored: TRUNCATED, TRUNCATION, reception ends, a flush begins. -/
def State.truncate (s : State) (d : DeviceId) (i : JobId) : State :=
  ((((s.latchDevice d .truncation).modDevice d DevicePort.truncationStop).modJob i Job.cutShort).endIfDelivered
    i).settle d

/-- R77, R79: the device side of a stored character: the first stops FIRST_BYTE and starts GAP, each later one restarts
GAP. -/
def DevicePort.charStored (paused : Bool) (p : DevicePort) : DevicePort :=
  ({ p with scan := { p.scan with firstByte := .stopped, gap := .running p.record.endGap } }).reviseGap paused

/-- R77: a character has been stored for the job. -/
def Job.stored (j : Job) (bad : Bool) : Job :=
  { j with received := j.received + 1, lineErrors := j.lineErrors || bad }

/-- R77, step 3: the byte goes to the next position of the tail block, `fill` bytes standing there. -/
def State.storeByte (s : State) (d : DeviceId) (i : JobId) (fill : Nat) (data : Byte) (bad : Bool) : State :=
  match s.job i with
  | none => s
  | some j =>
    match j.allocation.getLast? with
    | none => s
    | some b =>
      ((s.writeBlock b fill data).setJob i (some (j.stored bad))).modDevice d (DevicePort.charStored j.paused)

/-- The port's ACTIVE scan job. -/
def State.activeScan (s : State) (d : DeviceId) : Option JobId :=
  (s.activeJob d).filter fun i =>
    match s.job i with
    | some j => decide (j.kind = .scan)
    | none => false

/-- R77: a character of the ACTIVE scan job in RECEPTION; `bad` is a parity or framing error. -/
def State.scanChar (s : State) (d : DeviceId) (i : JobId) (data : Byte) (bad : Bool) : State :=
  match s.job i with
  | none => s
  | some j =>
    if Config.maxOffset ≤ j.received then s.truncate d i
    else if j.allocation = [] ∨ Config.blockBytes ≤ j.tailFill then
      match s.allocateScan i with
      | none => s.truncate d i
      | some t => (t.evalWatermark i).storeByte d i 0 data bad
    else s.storeByte d i j.tailFill data bad

/-- R77, R86, R88: a character on a scanner port that is ONLINE, DRAINING or in FAULT. -/
def State.scannerChar (s : State) (d : DeviceId) (data : Byte) (bad : Bool) : State :=
  if (s.device d).scan.flush then s
  else if (s.device d).scan.phase = .reception then
    match s.activeScan d with
    | some i => s.scanChar d i data bad
    | none => s.latchDevice d .unsolicited
  else s.latchDevice d .unsolicited

/-- R21: a character on an OFFLINE printer or scanner port. -/
def State.offlineChar (s : State) (d : DeviceId) : State :=
  let t := s.raise .deviceActivity
  if (s.device d).record.wakeOnActivity then t.becomeOnline d else t

/-! ### Receiver (R152, R156) -/

/-- R152, R156: the ninth bit does not give the parity of the format. -/
def parityError (f : Format) (data : Byte) (ninth : Bool) : Bool :=
  match f with
  | .f8E1 => oddOnes data ^^ ninth
  | .f8O1 => !(oddOnes data ^^ ninth)
  | .f8N1 => false
  | .multidrop => false

/-- R156: a completed character latches its errors; with the stop bit at space the line is held at space. -/
def DevicePort.latchErrors (parity framing : Bool) (p : DevicePort) : DevicePort :=
  let q := if parity then p.latch .parity else p
  let r := if framing then q.latch .charFraming else q
  { r with lineHeld := framing }

/-- R156: the taker of a completed character. -/
def State.takeChar (s : State) (d : DeviceId) (data : Byte) (address bad : Bool) : State :=
  match (s.device d).record.cls, (s.device d).service with
  | .printer, .offline => s.offlineChar d
  | .scanner, .offline => s.offlineChar d
  | .scanner, .online => s.scannerChar d data bad
  | .scanner, .draining => s.scannerChar d data bad
  | .scanner, .fault _ => s.scannerChar d data bad
  | .touch, .online => s.touchChar d data address
  | _, _ => s

/-! ### Commands of the device side -/

/-- ATN_LINE_CHANGE (R17). -/
def execAtnLineChange (d : DeviceId) (high : Bool) (s : State) : Host.Outcome State Fault Refusal :=
  .next ((s.modDevice d fun p => { p with atnPin := high }).followAtn d)

/-- ATN_BLANKING_EXPIRY (R17): the line has held its level through the period. -/
def execAtnBlankingExpiry (d : DeviceId) (s : State) : Host.Outcome State Fault Refusal :=
  .next <|
    match (s.device d).blanking with
    | .running _ => s.qualify d (s.device d).atnLine
    | _ => s

/-- FAULT_LIMIT_EXPIRY (R20). -/
def execFaultLimitExpiry (d : DeviceId) (s : State) : Host.Outcome State Fault Refusal :=
  .next <|
    match (s.device d).faultLimit with
    | .running _ =>
      let t := s.modDevice d fun p => { p with faultLimit := .stopped }
      match s.activeJob d with
      | some i => (t.decideEnd i .failedStalled).settle d
      | none => t
    | _ => s

/-- RDY_CHANGE (R153). -/
def execRdyChange (d : DeviceId) (high : Bool) (s : State) : Host.Outcome State Fault Refusal :=
  .next ((s.modDevice d fun p => { p with rdyPin := high }).settle d)

/-- R94: the poll character has left the shift stage. -/
def State.pollCharSent (s : State) (d : DeviceId) : State :=
  match (s.device d).poller.current with
  | some (_, .sending) =>
    if (s.device d).holding.isNone then s.setStep d (.awaiting (s.device d).record.replyTimeout) else s
  | _ => s

/-- CHARACTER_SENT (R153): the shift stage empties. -/
def execCharacterSent (d : DeviceId) (s : State) : Host.Outcome State Fault Refusal :=
  .next <|
    match (s.device d).shift with
    | none => s
    | some _ => ((s.modDevice d fun p => { p with shift := none }).pollCharSent d).settle d

/-- DEVICE_BREAK_END (R154). -/
def execDeviceBreakEnd (d : DeviceId) (s : State) : Host.Outcome State Fault Refusal :=
  .next <|
    match (s.device d).brk with
    | .running => (s.modDevice d fun p => { p with brk := .none }).settle d
    | _ => s

/-- UNDERRUN_TIMEOUT_EXPIRY (R66). -/
def execUnderrunTimeoutExpiry (d : DeviceId) (s : State) : Host.Outcome State Fault Refusal :=
  .next <|
    match (s.device d).underrun with
    | .running _ =>
      match s.activeJob d with
      | some i => (s.endJob i .failedUnderrun).settle d
      | none => s
    | _ => s

/-- DEVICE_CHAR_RECEIVED (R156). No character completes while the line is held at space. -/
def execDeviceCharReceived (d : DeviceId) (data : Byte) (ninth stopMark : Bool) (s : State) :
    Host.Outcome State Fault Refusal :=
  .next <|
    if (s.device d).lineHeld then s
    else
      let parity := parityError (s.device d).record.format data ninth
      (s.modDevice d (DevicePort.latchErrors parity (!stopMark))).takeChar d data
        (decide ((s.device d).record.format = .multidrop) && ninth) (parity || !stopMark)

/-- FIRST_BYTE_TIMEOUT_EXPIRY (R78). -/
def execFirstByteTimeoutExpiry (d : DeviceId) (s : State) : Host.Outcome State Fault Refusal :=
  .next <|
    match (s.device d).scan.firstByte with
    | .running _ =>
      match s.activeJob d with
      | some i => (s.endJob i .failedNoData).settle d
      | none => s
    | _ => s

/-- END_GAP_REACHED (R79): reception ends and the tail block becomes deliverable. -/
def execEndGapReached (d : DeviceId) (s : State) : Host.Outcome State Fault Refusal :=
  .next <|
    match (s.device d).scan.gap with
    | .running _ =>
      if (s.device d).lineHeld then s
      else
        let t := s.modDevice d fun p => { p with scan := { p.scan with phase := .delivery, gap := .stopped } }
        match s.activeJob d with
        | some i => (t.endIfDelivered i).settle d
        | none => t
    | _ => s

/-- FLUSH_END (R86). -/
def execFlushEnd (d : DeviceId) (s : State) : Host.Outcome State Fault Refusal :=
  .next <|
    if (s.device d).scan.flush && !(s.device d).lineHeld then
      (s.modDevice d fun p => { p with scan := { p.scan with flush := false } }).settle d
    else s

/-- DEVICE_LINE_RETURN_TO_MARK (R156, R157). -/
def execDeviceLineReturnToMark (d : DeviceId) (s : State) : Host.Outcome State Fault Refusal :=
  .next (s.modDevice d fun p => { p with lineHeld := false })

end Sys2Proof.Machine
end

