-- ==== Sys2Proof/WellFormed.lean ====
section
/-! DEFINITION. Which commands the link can bring: the sizes that R140 and R150 give a frame. -/

namespace Sys2Proof

/-- A good frame's payload is at most 256 bytes long (R140, check 3). -/
def Request.wf (r : Request) : Bool := decide (r.payload.length ≤ Config.maxPayload)

/-- The receiver keeps the first 263 characters and counts the rest (R140). -/
def RxFrame.wf (f : RxFrame) : Bool := decide (f.chars.length = min f.count Config.frameKept)

/-- A TABLE_WRITE frame's payload is TABLE, INDEX and the record (R150). -/
def recordWf (record : List Byte) : Bool := decide (record.length + 2 ≤ Config.maxPayload)

/-- The command can come from the link: its frame has a size that a taken frame can have. -/
def Instr.wf : Instr → Bool
  | .frameCheckFailed _ f => f.wf
  | .badFrameRequest _ _ r => r.wf
  | .jobOpen _ r | .jobData _ r | .jobClose _ r | .jobAbort _ r | .jobQuery _ r => r.wf
  | .unlock _ r | .lock _ r => r.wf
  | .tableRead _ r | .tableReadNext _ r | .tableWriteReadOnly _ r | .tableWriteNext _ r => r.wf
  | .tableWriteRoute _ _ _ _ rec | .tableWritePanel _ _ _ _ rec | .tableWriteZone _ _ _ _ rec => recordWf rec
  | .tableWriteDevice _ _ _ _ rec | .tableWriteKiosk _ _ _ _ rec | .tableWriteSpool _ _ _ rec => recordWf rec
  | .statusRead _ r | .portStatus _ r | .deviceStatus _ r | .flagsClear _ r | .noticeSet _ r => r.wf
  | .storeWrite _ r | .switchReset _ r | .portReset _ r => r.wf
  | .deviceDrain _ r | .deviceResume _ r | .deviceReset _ r | .deviceBreak _ r => r.wf
  | .powerOnReset | .storeReadComplete | .storeWriteComplete => true
  | .kioskBreak _ | .cleanPeriod _ | .kioskCharReceived _ _ _ => true
  | .transmitStart _ | .frameTransmitEnd _ | .breakEchoEnd _ | .lineGapEnd _ => true
  | .atnLineChange _ _ | .atnBlankingExpiry _ | .faultLimitExpiry _ | .rdyChange _ _ | .characterSent _ => true
  | .deviceBreakEnd _ | .underrunTimeoutExpiry _ | .deviceCharReceived _ _ _ _ => true
  | .firstByteTimeoutExpiry _ | .endGapReached _ | .flushEnd _ | .pollIntervalExpiry _ => true
  | .replyTimeoutExpiry _ | .replyIdleLimit _ | .settlingEnd _ | .deviceLineReturnToMark _ => true

end Sys2Proof
end

