-- ==== Sys2Proof/Machine/Link.lean ====
section
/-! DEFINITION. Kiosk link ports (chapter 9): taking and checking frames, the link error score and its states,
isolation and port reset, the reply room check, REPLY entries, and the commands that act on the link alone. -/

namespace Sys2Proof.Machine

/-! ### Taking frames (R140, R142) -/

/-- R138, R147: the port's receiver gathers and takes frames. -/
def State.receives (s : State) (k : KioskId) : Bool := !s.starting && decide ((s.kiosk k).link ≠ .isolated)

/-- The frame can be what the receiver takes now: its characters stand gathered, or none does and the command brings
them all (log entry 3). -/
def KioskPort.presents (p : KioskPort) (f : RxFrame) : Bool :=
  decide (p.gathered = RxFrame.empty) || decide (p.gathered = f)

/-- The characters of a good frame, its CRC the one R141 computes. -/
def goodFrame (kind : Byte) (r : Request) : RxFrame where
  chars := frameBytes r.channel kind r.tag r.payload
  count := r.payload.length + 7
  framing := false

/-- The port takes this good frame now. -/
def State.takes (s : State) (k : KioskId) (kind : Byte) (r : Request) : Bool :=
  s.receives k && r.wf && (s.kiosk k).presents (goodFrame kind r)

/-- R144, R145: the decrement of a good frame, and what it does to the link state. -/
def KioskPort.decreaseScore (p : KioskPort) : KioskPort :=
  { p with
    score := p.score - 1,
    link := if p.link = .degraded ∧ p.score - 1 ≤ 127 then .normal else p.link }

/-- R142, step 1: the frame leaves the receiver and the score is decreased. -/
def KioskPort.takeGood (p : KioskPort) : KioskPort := KioskPort.decreaseScore { p with gathered := RxFrame.empty }

/-- R140: the first check that a taken frame fails. -/
def RxFrame.firstFailure (f : RxFrame) : Option KioskCause :=
  if f.framing then some .charFraming
  else if 263 < f.count then some .overlength
  else if f.count < 7 ∨ Config.maxPayload < word16 f.chars 3 ∨ f.count ≠ word16 f.chars 3 + 7 then some .lengthMismatch
  else if (crc16 (f.chars.take (f.count - 2))).toNat ≠ word16 f.chars (f.count - 2) then some .crcError
  else none

/-! ### Loss of a port (R23, R121, R137, R146, R148) -/

/-- R23: the port's live jobs end OWNER_LOST in ascending slot order. -/
def State.endPortJobs (s : State) (k : KioskId) : State :=
  allSlots.foldl (fun t slot => t.endJob (jobIx k slot) .ownerLost) s

/-- The device ports of a kiosk port's live jobs, in slot order. -/
def State.portDevices (s : State) (k : KioskId) : List DeviceId :=
  allSlots.filterMap fun slot => (s.job (jobIx k slot)).map Job.device

/-- What isolation and PORT_RESET have in common on the port itself (table of 9.4, R137). -/
def KioskPort.drop (p : KioskPort) : KioskPort :=
  { p.clearEgress with
    unlocked := false, cursor := none, causes := 0#8, gathered := RxFrame.empty, score := 0, cleanCount := 0 }

/-- What isolation and PORT_RESET have in common: the port is no notice port, its jobs end, its egress is emptied, its
contacts are silenced, and then the device ports of its jobs go on (log entry 12). -/
def State.dropPort (s : State) (k : KioskId) : State :=
  (((((s.dropNoticePort k).endPortJobs k).modKiosk k KioskPort.drop).loseOwner k).settleAll (s.portDevices k))

/-- R146: the link side of the entry into ISOLATED, its first clean period started. -/
def KioskPort.enterIsolated (p : KioskPort) : KioskPort :=
  { p with link := .isolated, cleanTimer := .running 1, score := 0, cleanCount := 0, unlocked := false, cursor := none }

/-- R146: the port enters ISOLATED. It is taken from the notice port's place before the flag is set (R168). -/
def State.isolate (s : State) (k : KioskId) : State :=
  (((s.dropNoticePort k).modKiosk k KioskPort.enterIsolated).raise .kioskIsolated).dropPort k

/-- R148: the link side of a port reset: NORMAL, the score cleared, the record's RATE in effect. -/
def KioskPort.relink (p : KioskPort) : KioskPort :=
  { p with link := .normal, score := 0, cleanCount := 0, cleanTimer := .stopped, rate := p.recordRate }

/-- R148: the reset of a kiosk port takes effect. -/
def State.resetPort (s : State) (k : KioskId) : State := (s.modKiosk k KioskPort.relink).dropPort k

/-! ### Score (R144, R145) -/

/-- R144, R145: an increase of 8, which isolates the port when it would pass 255. -/
def State.increaseScore (s : State) (k : KioskId) : State :=
  if 248 ≤ (s.kiosk k).score then s.isolate k
  else
    let before := (s.kiosk k).score
    let degrades := (s.kiosk k).link = .normal ∧ 128 ≤ before + 8
    let t := s.modKiosk k fun p => { p with score := before + 8, link := if degrades then .degraded else p.link }
    let u := if before < 96 ∧ 96 ≤ before + 8 then t.raise .kioskWarn else t
    if degrades then u.raise .kioskDegraded else u

/-- A cause is latched and the score increased by 8 (R56, R140, R163). -/
def State.penalize (s : State) (k : KioskId) (c : KioskCause) : State := (s.latchKiosk k c).increaseScore k

/-! ### Replies (R126) -/

/-- Number of REPLY entries waiting (R124). -/
def KioskPort.replyCount (p : KioskPort) : Nat := (p.control.filter ControlEntry.isReply).length

/-- R126: there is room for one more REPLY, a held place counted. -/
def KioskPort.replyRoom (p : KioskPort) : Bool :=
  decide (p.replyCount + (if p.replyHeld then 1 else 0) < Config.replyCap)

/-- R126: a request without reply room is dropped. -/
def State.dropRequest (s : State) (k : KioskId) : State := (s.latchKiosk k .requestDropped).raise .egressDrop

/-- A REPLY joins the control queue on the request's CHANNEL and TAG. -/
def State.reply (s : State) (k : KioskId) (kind : Byte) (r : Request) (status : Status) (fields : List Byte) : State :=
  s.handControl k (.reply r.channel r.tag kind status fields .nothing)

/-- R14, R150: the two fields of every DEVICE_DRAIN reply: the port's service state and return target; none where the
request names no port (log entry 9). -/
def State.drainFields (s : State) (payload : List Byte) : List Byte :=
  match (if payload.length = 1 then toFin 8 (byteAt payload 0) else none) with
  | some d => [byte (s.device d).service.code, optByte (s.device d).service.targetCode]
  | none => [noneByte, noneByte]

/-- R150: the fields that a refusal carries: those of the rows marked "always". -/
def State.refusalFields (s : State) (kind : Byte) (payload : List Byte) : List Byte :=
  if kind = kindJobOpen then [slotAsked payload, noneByte, noneByte, noneByte]
  else if kind = kindJobClose then [slotAsked payload, 0#8, 0#8, 0#8]
  else if kind = kindDeviceDrain then s.drainFields payload
  else []

/-- A refusal: a REPLY and nothing else (R164). -/
def State.refuse (s : State) (k : KioskId) (kind : Byte) (r : Request) (status : Status) : State :=
  s.reply k kind r status (s.refusalFields kind r.payload)

/-- R142, R126: a good frame other than JOB_DATA is taken: decrement, reply room check, then the request is served. -/
def State.serve (s : State) (k : KioskId) (kind : Byte) (r : Request) (served : State → State) : State :=
  if s.takes k kind r then
    let t := s.modKiosk k KioskPort.takeGood
    if (t.kiosk k).replyRoom then served t else t.dropRequest k
  else s

/-- R142, step 4 and R164, checks 1 and 2: service, lock and form of a management request. -/
def State.serveManage (s : State) (k : KioskId) (kind : Byte) (r : Request) (form : Bool) (served : State → State) :
    State :=
  s.serve k kind r fun t =>
    if service r.channel ≠ serviceManage then t.refuse k kind r .badRequest
    else if !(t.kiosk k).unlocked then t.refuse k kind r .locked
    else if !form then t.refuse k kind r .badRequest
    else served t

/-! ### Commands -/

/-- FRAME_CHECK_FAILED (R140). A frame that passes every check, or holds no character, is no such frame. -/
def execFrameCheckFailed (k : KioskId) (taken : RxFrame) (s : State) : Host.Outcome State Fault Refusal :=
  .next <|
    if s.receives k && taken.wf && decide (0 < taken.count) && (s.kiosk k).presents taken then
      match RxFrame.firstFailure taken with
      | some c => (s.modKiosk k fun p => { p with gathered := RxFrame.empty }).penalize k c
      | none => s
    else s

/-- R142, step 4: the service and KIND of a good frame name no request together. A JOB_DATA frame is not handled by
that step. -/
def isBadFrame (kind : Byte) (r : Request) : Bool :=
  kind != kindJobData &&
    (decide (2 < service r.channel) || (!isJobKind kind && !isManageKind kind) ||
      (isJobKind kind && decide (service r.channel = serviceManage)) ||
      (isManageKind kind && decide (service r.channel ≠ serviceManage)))

/-- BAD_FRAME_REQUEST (R142). -/
def execBadFrameRequest (k : KioskId) (kind : Byte) (r : Request) (s : State) : Host.Outcome State Fault Refusal :=
  .next <| if isBadFrame kind r then s.serve k kind r fun t => t.refuse k kind r .badRequest else s

/-- KIOSK_BREAK (R143, R147). -/
def execKioskBreak (k : KioskId) (s : State) : Host.Outcome State Fault Refusal :=
  .next <|
    if s.starting then s
    else if (s.kiosk k).link = .isolated then s.modKiosk k fun p => { p with cleanTimer := .running 1 }
    else s.modKiosk k fun p => { p with gathered := RxFrame.empty, cursor := none, echoPending := true }

/-- CLEAN_PERIOD (R147). -/
def execCleanPeriod (k : KioskId) (s : State) : Host.Outcome State Fault Refusal :=
  .next <|
    if (s.kiosk k).link = .isolated then
      if (s.kiosk k).cleanCount + 1 < 128 then s.modKiosk k fun p => { p with cleanCount := p.cleanCount + 1 }
      else
        (s.modKiosk k fun p =>
          { p with link := .normal, score := 0, cleanCount := 0, cleanTimer := .stopped,
                   gathered := RxFrame.empty }).raise .kioskRecovered
    else s

/-- R140: a completed character joins the frame being gathered; the first 263 are kept. -/
def RxFrame.add (f : RxFrame) (char : Byte) (framing : Bool) : RxFrame where
  chars := if f.chars.length < Config.frameKept then f.chars ++ [char] else f.chars
  count := f.count + 1
  framing := f.framing || framing

/-- KIOSK_CHAR_RECEIVED (R140, R147). -/
def execKioskCharReceived (k : KioskId) (char : Byte) (framing : Bool) (s : State) : Host.Outcome State Fault Refusal :=
  .next <|
    if s.starting then s
    else if (s.kiosk k).link = .isolated then s.modKiosk k fun p => { p with cleanTimer := .running 1 }
    else s.modKiosk k fun p => { p with gathered := RxFrame.add p.gathered char framing }

end Sys2Proof.Machine
end

