-- ==== Sys2Proof/Machine/Jobs.lean ====
section
/-! DEFINITION. The job requests: the route lookup and admission (chapter 2), JOB_DATA and JOB_CLOSE (chapter 4),
JOB_ABORT and JOB_QUERY (chapter 1). -/

namespace Sys2Proof.Machine

/-! ### Route table (R26–R28) -/

/-- R26: the channel has MATCH's digit wherever MASK has a 1. -/
def RouteEntry.matches (e : RouteEntry) (channel : Byte) : Bool := decide (channel &&& e.mask = e.matchValue &&& e.mask)

/-- R27: the entry decides for this channel and kiosk port. -/
def RouteEntry.decides (e : RouteEntry) (channel : Byte) (k : KioskId) : Bool :=
  e.enabled && e.ports.getLsbD k.val && e.matches channel

/-- R27: the first entry that decides. -/
def State.lookup (s : State) (channel : Byte) (k : KioskId) : Option RouteId :=
  allRoutes.find? fun e => (s.route e).decides channel k

/-- R28: HITS counts the decision, up to 65535. -/
def RouteEntry.hit (e : RouteEntry) : RouteEntry := { e with hits := min 65535 (e.hits + 1) }

/-! ### JOB_OPEN (R31–R37) -/

/-- R34: the device class serves the job's kind. -/
def DeviceClass.serves : DeviceClass → JobKind → Bool
  | .printer, .print => true
  | .scanner, .scan => true
  | _, _ => false

/-- The four fields of every JOB_OPEN reply (R150). -/
def openFields (slot : SlotId) (entry : Option RouteId) (device : Option DeviceId) (position : Option Nat) :
    List Byte :=
  [byte slot.val, optByte (entry.map Fin.val), optByte (device.map Fin.val), optByte position]

/-- R2, R47: the record of an admitted job. -/
def admittedJob (channel : Byte) (a : OpenArgs) (d : DeviceId) : Job where
  state := match a.kind with | .print => .loading | .scan => .ready
  kind := a.kind
  channel := channel
  device := d
  priority := a.priority
  declaredLength := a.declaredLength
  complete := false
  received := 0
  sent := 0
  creditLimit := 0
  allocation := []
  freedBlocks := 0
  command := a.command
  maxBlocks := a.maxBlocks
  held := none
  lineErrors := false
  truncated := false
  paused := false

/-- R2, R36, R37, R47: admission: the record, the queue, the REPLY OK, then the grant pass of a print job, and the
scheduler. -/
def State.enrol (s : State) (k : KioskId) (r : Request) (a : OpenArgs) (e : RouteId) (d : DeviceId) : State :=
  let position := (s.device d).queue.length
  let t := (s.setJob (jobIx k a.slot) (some (admittedJob r.channel a d))).modDevice d fun p =>
    { p with queue := p.queue ++ [jobIx k a.slot] }
  let u := t.reply k kindJobOpen r .ok (openFields a.slot (some e) (some d) (some position))
  (match a.kind with | .print => u.grantPass | .scan => u).settle d

/-- R34, R35: the device check and the queue space check of a JOB_OPEN that entry `e` accepts. -/
def State.admitOrRefuse (s : State) (k : KioskId) (r : Request) (a : OpenArgs) (e : RouteId) (d : DeviceId) : State :=
  if !(s.device d).record.cls.serves a.kind then
    s.reply k kindJobOpen r .noDevice (openFields a.slot (some e) (some d) none)
  else if Config.queueCap ≤ (s.device d).queue.length then
    s.reply k kindJobOpen r .queueFull (openFields a.slot (some e) (some d) none)
  else s.enrol k r a e d

/-- R31–R35: the checks of a JOB_OPEN in their order, on the state its good frame left. -/
def State.openJob (s : State) (k : KioskId) (r : Request) : State :=
  match parseOpen r.channel r.payload with
  | none => s.refuse k kindJobOpen r .badRequest
  | some a =>
    if s.occupied k a.slot then s.reply k kindJobOpen r .slotBusy (openFields a.slot none none none)
    else if (s.kiosk k).link = .degraded then
      s.reply k kindJobOpen r .portDegraded (openFields a.slot none none none)
    else
      match s.lookup r.channel k with
      | none => s.reply k kindJobOpen r .denied (openFields a.slot none none none)
      | some e =>
        let t := s.setRoute e (s.route e).hit
        match (s.route e).action with
        | .deny => t.reply k kindJobOpen r .denied (openFields a.slot (some e) none none)
        | .accept => t.admitOrRefuse k r a e (s.route e).device

/-- JOB_OPEN (R31). -/
def execJobOpen (k : KioskId) (r : Request) (s : State) : Host.Outcome State Fault Refusal :=
  .next (s.serve k kindJobOpen r fun t => t.openJob k r)

/-! ### JOB_DATA (R56–R60) -/

/-- R56: the live print job a JOB_DATA frame is for; none when the frame is refused. -/
def State.dataTarget (s : State) (k : KioskId) (r : Request) : Option JobId :=
  if service r.channel = servicePrint ∧ 5 ≤ r.payload.length then
    match toFin 3 (byteAt r.payload 0) with
    | none => none
    | some slot =>
      match s.job (jobIx k slot) with
      | none => none
      | some j => if j.kind = .print then some (jobIx k slot) else none
  else none

/-- R39, R58: bytes from offset `p` on, each into its block and position. -/
def State.writeData (s : State) (chain : List BlockId) (freed : Nat) : Nat → List Byte → State
  | _, [] => s
  | p, b :: rest =>
    State.writeData (match chain[p / 128 - freed]? with | some blk => s.writeBlock blk p b | none => s) chain freed
      (p + 1) rest

/-- R60: the start threshold is met. -/
def Job.meetsThreshold (j : Job) (r : DeviceRecord) : Bool :=
  decide (r.startThreshold ≠ 0) &&
    (decide (r.startThreshold ≤ j.received / 128) || (decide (j.received = j.creditLimit) && decide (0 < j.creditLimit)))

/-- R3, R60: a LOADING print job becomes READY when it is COMPLETE or meets the threshold. -/
def Job.testReady (j : Job) (r : DeviceRecord) : Job :=
  if j.kind = .print ∧ j.state = .loading ∧ (j.complete = true ∨ j.meetsThreshold r = true) then { j with state := .ready }
  else j

/-- R58: RECEIVED becomes `upTo`, and COMPLETE follows at the declared length. -/
def Job.receive (j : Job) (upTo : Nat) : Job :=
  { j with received := upTo, complete := j.complete || (decide (j.declaredLength ≠ 0) && decide (j.declaredLength ≤ upTo)) }

/-- R58: the data is accepted: written, counted, tested, and the port goes on. -/
def State.acceptData (s : State) (i : JobId) (j : Job) (o : Nat) (data : List Byte) : State :=
  let t := s.writeData j.allocation j.freedBlocks j.received (data.drop (j.received - o))
  (t.setJob i (some ((j.receive (o + data.length)).testReady (s.device j.device).record))).settle j.device

/-- R57: the four cases of a JOB_DATA frame for a live print job. -/
def State.takeData (s : State) (k : KioskId) (i : JobId) (j : Job) (o : Nat) (data : List Byte) : State :=
  if o + data.length ≤ j.received then s
  else if j.creditLimit < o + data.length ∨ 16777214 < o + data.length - 1 then s.penalize k .creditViolation
  else if j.received < o then (s.endJob i .failedGap).settle j.device
  else s.acceptData i j o data

/-- R142, step 2: a taken JOB_DATA frame. -/
def State.jobData (s : State) (k : KioskId) (r : Request) : State :=
  match s.dataTarget k r with
  | none => s.penalize k .creditViolation
  | some i =>
    match s.job i with
    | none => s
    | some j => s.takeData k i j (word24 r.payload 1) (r.payload.drop 4)

/-- JOB_DATA (R57). No REPLY, so no reply room check (R126). -/
def execJobData (k : KioskId) (r : Request) (s : State) : Host.Outcome State Fault Refusal :=
  .next <| if s.takes k kindJobData r then (s.modKiosk k KioskPort.takeGood).jobData k r else s

/-! ### Requests that name a slot -/

/-- R142: a job request that names a slot is served on PRINT and SCAN, with a SLOT of 0–2 alone in its payload. -/
def State.serveSlot (s : State) (k : KioskId) (kind : Byte) (r : Request) (served : State → SlotId → State) : State :=
  s.serve k kind r fun t =>
    if service r.channel ≠ servicePrint ∧ service r.channel ≠ serviceScan then t.refuse k kind r .badRequest
    else
      match parseSlot r.payload with
      | none => t.refuse k kind r .badRequest
      | some slot => served t slot

/-- R50, R63: what a granted close does after its REPLY. -/
def State.finishClose (s : State) (i : JobId) (j : Job) : State :=
  (((s.closeChain i).grantPass).modJob i fun x => x.testReady (s.device j.device).record).settle j.device

/-- R62: the table of JOB_CLOSE. -/
def State.closeJob (s : State) (k : KioskId) (r : Request) (slot : SlotId) : State :=
  match s.job (jobIx k slot) with
  | none => s.refuse k kindJobClose r .badState
  | some j =>
    if j.kind = .scan ∨ service r.channel ≠ servicePrint then s.refuse k kindJobClose r .badState
    else if j.complete then s.reply k kindJobClose r .ok (byte slot.val :: be24 j.declaredLength)
    else if j.declaredLength = 0 then
      (s.reply k kindJobClose r .ok (byte slot.val :: be24 j.received)).finishClose (jobIx k slot) j
    else s.refuse k kindJobClose r .badState

/-- JOB_CLOSE (R62). -/
def execJobClose (k : KioskId) (r : Request) (s : State) : Host.Outcome State Fault Refusal :=
  .next (s.serveSlot k kindJobClose r fun t slot => t.closeJob k r slot)

/-- The service on which a job of a kind is aborted (R9). -/
def JobKind.service : JobKind → Nat
  | .print => servicePrint
  | .scan => serviceScan

/-- R9: the table of JOB_ABORT. -/
def State.abortJob (s : State) (k : KioskId) (r : Request) (slot : SlotId) : State :=
  match s.job (jobIx k slot) with
  | none => s.refuse k kindJobAbort r .badState
  | some j =>
    if service r.channel ≠ j.kind.service then s.refuse k kindJobAbort r .badState
    else if j.held.isSome then s.refuse k kindJobAbort r .badState
    else if j.state = .active then
      match j.kind with
      | .print => s.reply k kindJobAbort r .ok [byte slot.val, 0#8]
      | .scan =>
        ((s.reply k kindJobAbort r .ok [byte slot.val, 1#8]).decideEnd (jobIx k slot) .aborted).settle j.device
    else (s.reply k kindJobAbort r .ok [byte slot.val, 1#8]).endJob (jobIx k slot) .aborted

/-- JOB_ABORT (R9). -/
def execJobAbort (k : KioskId) (r : Request) (s : State) : Host.Outcome State Fault Refusal :=
  .next (s.serveSlot k kindJobAbort r fun t slot => t.abortJob k r slot)

/-- R10: QUEUE_POSITION of a job in a device queue. -/
def queuePosition (q : List JobId) (i : JobId) : Nat := q.idxOf i

/-- R10, R150: the report of a live record; CREDIT_LIMIT of a scan job is three free bytes, and the bits of the fields
that the job's kind does not have are drawn from a fourth (log entry 8). -/
def queryFields (s : State) (slot : SlotId) (i : JobId) (j : Job) : List Byte :=
  [byte slot.val, byte j.state.code, byte j.kind.code, byte j.device.val, j.priority,
    byte (queuePosition (s.device j.device).queue i),
    byte (bitValue j.paused 1 + bitValue (j.completeBit (Config.freeByte (s.freeIndex + 3))) 2 +
      bitValue (j.truncatedBit (Config.freeByte (s.freeIndex + 3))) 3 + bitValue j.lineErrors 4 +
      bitValue (j.abortBit (Config.freeByte (s.freeIndex + 3))) 5)] ++
    be24 j.received ++ be24 j.sent ++ (match j.kind with | .print => be24 j.creditLimit | .scan => s.freeBytes 3)

/-- R10, R150: the bits of a FREE record's report: ENDING, and free bits from PAUSED to ABORT_PENDING (log entry 8). -/
def freeQueryBits (ending : Bool) (drawn : Byte) : Byte := byte (bitValue ending 0 + drawn.toNat % 32 * 2)

/-- R10, R150: the report of a FREE record: STATE and ENDING, none in the other one-byte fields (log entry 9), free
bits beside ENDING and free bytes in the three counts (log entry 8). -/
def freeQueryFields (s : State) (k : KioskId) (slot : SlotId) : List Byte :=
  [byte slot.val, 0#8, noneByte, noneByte, noneByte, noneByte,
    freeQueryBits (s.jobEndWaits k slot) (Config.freeByte (s.freeIndex + 9))] ++ s.freeBytes 9

/-- R10: JOB_QUERY of a slot. -/
def State.queryJob (s : State) (k : KioskId) (r : Request) (slot : SlotId) : State :=
  match s.job (jobIx k slot) with
  | none => (s.reply k kindJobQuery r .ok (freeQueryFields s k slot)).advanceFree 10
  | some j => (s.reply k kindJobQuery r .ok (queryFields s slot (jobIx k slot) j)).advanceFree 4

/-- JOB_QUERY (R10). -/
def execJobQuery (k : KioskId) (r : Request) (s : State) : Host.Outcome State Fault Refusal :=
  .next (s.serveSlot k kindJobQuery r fun t slot => t.queryJob k r slot)

end Sys2Proof.Machine
end

