-- ==== Sys2Proof/Machine/Transmit.lean ====
section
/-! DEFINITION. The kiosk transmit line (section 8.4): the arbiter, the frames it builds (R150), the end of a
transmission with what it releases (R83, R148, R170), break echo and gap. -/

namespace Sys2Proof.Machine

/-! ### Frames from the part (R125, R134, R150) -/

/-- TOUCH frame of a touch queue entry. -/
def TouchEntry.frame (e : TouchEntry) : List Byte :=
  frameBytes (byte (serviceTouch * 32 + (contactPanel e.contact).val)) kindTouch 0#8
    ([byte e.zone.val, byte (contactId e.contact).val, byte e.kind.code] ++ be16 e.kx ++ be16 e.ky)

/-- The frame of a control queue entry; a NOTICE takes the flags and mask as they stand now (R129). -/
def State.controlFrame (s : State) : ControlEntry → List Byte
  | .reply channel tag kind status fields _ => frameBytes channel kindReply tag ([kind, status.code] ++ fields)
  | .credit channel slot limit => frameBytes channel kindCredit 0#8 (byte slot.val :: be24 limit)
  | .jobEnd channel slot reason count lineErrors =>
    frameBytes channel kindJobEnd 0#8
      ([byte slot.val, reason.code] ++ be24 count ++ [byte (bitValue lineErrors 0)])
  | .notice => frameBytes 0x00#8 kindNotice 0#8 (be16 s.flags.toNat ++ be16 s.noticeMask.toNat)

/-- The reset that an entry's frame releases when it ends. -/
def ControlEntry.after : ControlEntry → AfterSend
  | .reply _ _ _ _ _ a => a
  | .credit _ _ _ => .nothing
  | .jobEnd _ _ _ _ _ => .nothing
  | .notice => .nothing

/-- SCAN_DATA frame of a job's head block (R83, R135). -/
def State.scanFrame (s : State) (slot : SlotId) (j : Job) : List Byte :=
  frameBytes j.channel kindScanData 0#8
    (byte slot.val :: be24 j.sent ++ (match j.allocation with | b :: _ => s.blockBytes b j.headFill | [] => []))

/-- A frame goes onto the line (R133). -/
def KioskPort.startFrame (source : FrameSource) (after : AfterSend) (bytes : List Byte) (p : KioskPort) : KioskPort :=
  { p with line := .frame, source := source, onLine := bytes, afterFrame := after }

/-- R132, R134: the head of the touch queue leaves, its frame starts, and an owed UP takes the place. -/
def State.startTouch (s : State) (k : KioskId) (e : TouchEntry) (rest : List TouchEntry) : State :=
  (s.modKiosk k fun p => { (p.startFrame .touch .nothing e.frame) with touch := rest }).placeOwed k allContacts

/-- R134: the head of the control queue leaves and its frame starts. -/
def State.startControl (s : State) (k : KioskId) (e : ControlEntry) (rest : List ControlEntry) : State :=
  s.modKiosk k fun p => { (p.startFrame .control e.after (s.controlFrame e)) with control := rest }

/-- R135: the SCAN_DATA frame of a slot starts, and SCAN_LAST follows. -/
def State.startScan (s : State) (k : KioskId) (slot : SlotId) : State :=
  match s.job (jobIx k slot) with
  | some j => s.modKiosk k fun p => { (p.startFrame (.scan slot) .nothing (s.scanFrame slot j)) with scanLast := slot }
  | none => s

/-- R134, R136: the order of preference. -/
def State.arbitrate (s : State) (k : KioskId) : State :=
  if (s.kiosk k).echoPending then s.modKiosk k fun p => { p with echoPending := false, line := .brk }
  else
    match (s.kiosk k).touch, (s.kiosk k).control with
    | e :: rest, _ => s.startTouch k e rest
    | [], e :: rest => s.startControl k e rest
    | [], [] =>
      match s.scanChoice k with
      | some slot => s.startScan k slot
      | none => s

/-- R133, R138: the arbiter may start something. -/
def State.mayTransmit (s : State) (k : KioskId) : Bool :=
  !s.starting && decide ((s.kiosk k).link ≠ .isolated) && decide ((s.kiosk k).line = .idle)

/-- TRANSMIT_START (R134). -/
def execTransmitStart (k : KioskId) (s : State) : Host.Outcome State Fault Refusal :=
  .next <| if s.mayTransmit k then s.arbitrate k else s

/-! ### End of a transmission (R83, R84, R7) -/

/-- R83, R52: the head block of a job has been delivered: it is freed, SENT advances, the watermark is evaluated and a
grant pass follows, before an ending of the same moment (DESIGN CHOICE, log entry 34). -/
def State.deliverHead (s : State) (i : JobId) : State :=
  match s.job i with
  | none => s
  | some j => (((s.freeHead i).modJob i fun x => { x with sent := x.sent + j.headFill }).evalWatermark i).grantPass

/-- R7, R84, R135: a SCAN_DATA frame of the job has ended. -/
def State.scanDelivered (s : State) (i : JobId) : State :=
  match s.job i with
  | none => s
  | some j =>
    let t := s.deliverHead i
    (match j.held with
      | some reason => t.endJob i reason
      | none => t.endIfDelivered i).settle j.device

/-- What a SWITCH_RESET keeps of a kiosk port: its record (R170). -/
def KioskPort.switchReset (p : KioskPort) : KioskPort := p.drop.relink

/-- R170, R160: a device port after SWITCH_RESET. -/
def DevicePort.switchReset (p : DevicePort) : DevicePort := { p.resetEngine with queue := [], causes := 0#4 }

/-- R90, R104: a panel after SWITCH_RESET. -/
def Panel.switchReset (p : Panel) : Panel := { p with presence := .unknown, missRun := 0, clamps := 0, causes := 0#2 }

/-- R170: the switch reset takes effect on every block together. -/
def State.resetSwitch (s : State) : State :=
  { s with
    kiosks := mapTable KioskPort.switchReset s.kiosks
    devices := mapTable DevicePort.switchReset s.devices
    jobs := Vector.replicate 48 none
    panels := mapTable Panel.switchReset s.panels
    contacts := Vector.replicate 160 .free
    free := allBlocks
    tight := false
    grantPointer := 47
    flags := 0#13
    noticeMask := 0#13
    noticePort := none }

/-- The line enters its gap (R133). -/
def KioskPort.endFrame (p : KioskPort) : KioskPort :=
  { p with line := .gap, source := .none, onLine := [], afterFrame := .nothing }

/-- R133: what the end of a frame releases, its source and the reset its REPLY carried given. -/
def State.frameEnded (s : State) (k : KioskId) (source : FrameSource) (after : AfterSend) : State :=
  match source with
  | .scan slot => s.scanDelivered (jobIx k slot)
  | .none => s
  | .touch => s
  | .control =>
    match after with
    | .nothing => s
    | .switchReset => s.resetSwitch
    | .portReset => s.resetPort k

/-- FRAME_TRANSMIT_END (R133). -/
def execFrameTransmitEnd (k : KioskId) (s : State) : Host.Outcome State Fault Refusal :=
  .next <|
    if (s.kiosk k).line = .frame then
      (s.modKiosk k KioskPort.endFrame).frameEnded k (s.kiosk k).source (s.kiosk k).afterFrame
    else s

/-- BREAK_ECHO_END (R136). -/
def execBreakEchoEnd (k : KioskId) (s : State) : Host.Outcome State Fault Refusal :=
  .next <| if (s.kiosk k).line = .brk then s.modKiosk k fun p => { p with line := .gap } else s

/-- LINE_GAP_END (R133). -/
def execLineGapEnd (k : KioskId) (s : State) : Host.Outcome State Fault Refusal :=
  .next <| if (s.kiosk k).line = .gap then s.modKiosk k fun p => { p with line := .idle } else s

end Sys2Proof.Machine
end

