-- ==== Sys2Proof/Machine/Tables.lean ====
section
/-! DEFINITION. Table access (R165): reads, the management cursor, the checks and effects of each table's writes
(R29, R40, R41, R91, R110, R138, R162 with R22, R60 and R103). -/

namespace Sys2Proof.Machine

/-- The management cursor of a port. -/
def State.setCursor (s : State) (k : KioskId) (t : TableId) (next : Nat) : State :=
  s.modKiosk k fun p => { p with cursor := some (t, next) }

/-! ### Reads -/

/-- R165, R150: the record at an index inside its table, as it stands. -/
def State.record (s : State) (t : TableId) (i : Nat) : List Byte :=
  match t with
  | .route => match toFin 32 i with | some e => encodeRoute (s.route e) | none => []
  | .panel => match toFin 16 i with | some p => encodePanel (s.panel p) | none => []
  | .zone => match toFin 64 i with | some z => encodeZone (s.zone z) | none => []
  | .device => match toFin 8 i with | some d => encodeDevice (s.device d).record | none => []
  | .kiosk => match toFin 16 i with | some k => encodeKiosk (s.kiosk k) | none => encodeSpool s.spoolRecord
  | .job => match toFin 48 i with | some j => encodeJob (Config.freeByte s.freeIndex) (s.job j) | none => []
  | .contact =>
    match toFin 160 i with
    | some c => encodeContact (fun n => Config.freeByte (s.freeIndex + n)) (s.contact c)
    | none => []

/-- The free bytes that a read of a table draws (log entry 8). -/
def TableId.openBytes : TableId → Nat
  | .contact => contactOpenBytes
  | .job => jobOpenBytes
  | .route | .panel | .zone | .device | .kiosk => 0

/-- R165: a read answered OK: the record, and the cursor at the next index. -/
def State.readRecord (s : State) (k : KioskId) (kind : Byte) (r : Request) (t : TableId) (i : Nat) : State :=
  ((s.reply k kind r .ok ([byte t.code, byte i] ++ s.record t i)).setCursor k t (i + 1)).advanceFree t.openBytes

/-- TABLE_READ (R165). -/
def execTableRead (k : KioskId) (r : Request) (s : State) : Host.Outcome State Fault Refusal :=
  .next <|
    s.serveManage k kindTableRead r (decide (r.payload.length = 2)) fun t =>
      match tableOfCode (byteAt r.payload 0) with
      | none => t.refuse k kindTableRead r .badRequest
      | some tab =>
        if byteAt r.payload 1 < tab.size then t.readRecord k kindTableRead r tab (byteAt r.payload 1)
        else t.refuse k kindTableRead r .outOfRange

/-- TABLE_READ_NEXT (R165). -/
def execTableReadNext (k : KioskId) (r : Request) (s : State) : Host.Outcome State Fault Refusal :=
  .next <|
    s.serveManage k kindTableReadNext r (decide (r.payload.length = 0)) fun t =>
      match (t.kiosk k).cursor with
      | none => t.refuse k kindTableReadNext r .badState
      | some (tab, i) =>
        if i < tab.size then t.readRecord k kindTableReadNext r tab i else t.refuse k kindTableReadNext r .outOfRange

/-! ### Checks of a write -/

/-- R91, checks 3 and 4: another enabled panel stands in the way of the record. -/
def State.panelClash (s : State) (self : PanelId) (e : Panel) : Bool :=
  e.enabled &&
    allPanels.any fun p =>
      decide (p ≠ self) && (s.panel p).enabled && decide ((s.panel p).device = e.device) &&
        (decide ((s.device e.device).record.format ≠ .multidrop) || decide ((s.panel p).address = e.address))

/-- R162, check 2, and R22. -/
def State.deviceWritable (s : State) (d : DeviceId) : Bool :=
  ((s.device d).service == .disabled || (s.device d).service == .offline) &&
    !((s.device d).queue.any fun i => match s.job i with | some j => j.held.isSome | none => false)

/-- A test that fails refuses with its status. -/
def okOr (test : Bool) (status : Status) : Status := if test then .ok else status

/-- The table's own checks of a record of the right length at an index inside the table. -/
def State.checkRecord (s : State) (t : TableId) (i : Nat) (record : List Byte) : Status :=
  match t with
  | .route => okOr (decodeRoute record).isSome .badRequest
  | .panel =>
    match toFin 16 i with
    | none => .outOfRange
    | some p =>
      match decodePanel (s.panel p) record with
      | none => .badRequest
      | some e => okOr (!s.panelClash p e) .badRequest
  | .zone => okOr (decodeZone record).isSome .badRequest
  | .device =>
    match toFin 8 i with
    | none => .outOfRange
    | some d => if s.deviceWritable d then okOr (decodeDevice record).isSome .badRequest else .badState
  | .kiosk => if i < 16 then okOr (decodeKiosk record).isSome .badRequest else .ok
  | .job => .badRequest
  | .contact => .badRequest

/-- R165: a write's status: read-only tables and record length first, then the index, then the table's own checks. -/
def State.checkWrite (s : State) (t : TableId) (i : Nat) (record : List Byte) : Status :=
  if t.readOnly || decide (record.length ≠ t.recordSize) then .badRequest
  else if t.size ≤ i then .outOfRange
  else s.checkRecord t i record

/-! ### Effects of a write -/

/-- R91: the store of a panel entry: contacts released as they were bound, entry stored, round left. -/
def State.storePanel (s : State) (p : PanelId) (e : Panel) : State :=
  ((s.releasePanel p).setPanel p e).modDevice (s.panel p).device (DevicePort.removeFromRound p)

/-- R22: a job whose kind the class does not serve ends FAILED_NO_DEVICE. -/
def State.failMismatch (c : DeviceClass) (s : State) (i : JobId) : State :=
  match s.job i with
  | some j => if c.serves j.kind then s else s.endJob i .failedNoDevice
  | none => s

/-- R22: every such job of a queue, from the head. -/
def State.failMismatched (s : State) (c : DeviceClass) (q : List JobId) : State := q.foldl (State.failMismatch c) s

/-- R60: the start threshold is tested for every LOADING print job of a queue. -/
def State.testQueue (s : State) (rec : DeviceRecord) (q : List JobId) : State :=
  q.foldl (fun t i => t.modJob i fun j => j.testReady rec) s

/-- R162: the serial engine restarts with the new record. -/
def DevicePort.restartEngine (rec : DeviceRecord) (p : DevicePort) : DevicePort :=
  { p with record := rec, holding := none, shift := none, brk := .none, lineHeld := false }

/-- R162, R22, R60, R103: the store of a device record. -/
def State.storeDevice (s : State) (d : DeviceId) (rec : DeviceRecord) : State :=
  let t := s.modDevice d (DevicePort.restartEngine rec)
  let u := if rec.cls = (s.device d).record.cls then t else t.failMismatched rec.cls (s.device d).queue
  let v := u.modDevice d fun p => DevicePort.restartAtn { p with service := rec.restState }
  (v.testQueue rec (v.device d).queue).restartPanels (s.namedPanels d)

/-- R138, R40: the store of a kiosk record, and its grant pass. -/
def State.storeKiosk (s : State) (k : KioskId) (rate : Fin 4) (quota : Nat) : State :=
  (s.modKiosk k fun p => { p with recordRate := rate, quota := quota }).grantPass

/-- R41: the store of the spool record, its evaluation and its grant pass. -/
def State.storeSpool (s : State) (r : SpoolRecord) : State := ((s.setSpoolRecord r).evalTight).grantPass

/-- The store of a record that passed its checks. -/
def State.storeRecord (s : State) (t : TableId) (i : Nat) (record : List Byte) : State :=
  match t with
  | .route =>
    match toFin 32 i, decodeRoute record with
    | some e, some x => s.setRoute e x
    | _, _ => s
  | .panel =>
    match toFin 16 i with
    | none => s
    | some p =>
      match decodePanel (s.panel p) record with
      | some x => s.storePanel p x
      | none => s
  | .zone =>
    match toFin 64 i, decodeZone record with
    | some z, some x => s.setZone z x
    | _, _ => s
  | .device =>
    match toFin 8 i, decodeDevice record with
    | some d, some x => s.storeDevice d x
    | _, _ => s
  | .kiosk =>
    match toFin 16 i with
    | none => s.storeSpool (decodeSpool record)
    | some k =>
      match decodeKiosk record with
      | some (rate, quota) => s.storeKiosk k rate quota
      | none => s
  | .job => s
  | .contact => s

/-- R165: a write answered: OK with the cursor moved and the record stored, or its refusal. -/
def State.writeRecord (s : State) (k : KioskId) (kind : Byte) (r : Request) (t : TableId) (i : Nat)
    (record : List Byte) : State :=
  match s.checkWrite t i record with
  | .ok => ((s.reply k kind r .ok [byte t.code, byte i]).setCursor k t (i + 1)).storeRecord t i record
  | status => s.refuse k kind r status

/-- The request of a TABLE_WRITE that names a table and an index. -/
def writeRequest (channel tag : Byte) (t : TableId) (index : Byte) (record : List Byte) : Request where
  channel := channel
  tag := tag
  payload := [byte t.code, index] ++ record

/-- A TABLE_WRITE of a writable table. -/
def State.serveWrite (s : State) (k : KioskId) (channel tag : Byte) (t : TableId) (index : Byte) (record : List Byte) :
    State :=
  s.serveManage k kindTableWrite (writeRequest channel tag t index record) true fun u =>
    u.writeRecord k kindTableWrite (writeRequest channel tag t index record) t index.toNat record

/-! ### Commands -/

/-- TABLE_WRITE of ROUTE (R29). -/
def execTableWriteRoute (k : KioskId) (channel tag index : Byte) (record : List Byte) (s : State) :
    Host.Outcome State Fault Refusal :=
  .next (s.serveWrite k channel tag .route index record)

/-- TABLE_WRITE of PANEL (R91). -/
def execTableWritePanel (k : KioskId) (channel tag index : Byte) (record : List Byte) (s : State) :
    Host.Outcome State Fault Refusal :=
  .next (s.serveWrite k channel tag .panel index record)

/-- TABLE_WRITE of ZONE (R110). -/
def execTableWriteZone (k : KioskId) (channel tag index : Byte) (record : List Byte) (s : State) :
    Host.Outcome State Fault Refusal :=
  .next (s.serveWrite k channel tag .zone index record)

/-- TABLE_WRITE of DEVICE (R162). -/
def execTableWriteDevice (k : KioskId) (channel tag index : Byte) (record : List Byte) (s : State) :
    Host.Outcome State Fault Refusal :=
  .next (s.serveWrite k channel tag .device index record)

/-- TABLE_WRITE of KIOSK (R138, R40). -/
def execTableWriteKiosk (k : KioskId) (channel tag index : Byte) (record : List Byte) (s : State) :
    Host.Outcome State Fault Refusal :=
  .next (s.serveWrite k channel tag .kiosk index record)

/-- TABLE_WRITE of the spool record, KIOSK index 16 (R41). -/
def execTableWriteSpool (k : KioskId) (channel tag : Byte) (record : List Byte) (s : State) :
    Host.Outcome State Fault Refusal :=
  .next (s.serveWrite k channel tag .kiosk 16#8 record)

/-- A TABLE_WRITE payload names a table that can be written, and an index. -/
def namesWritable (payload : List Byte) : Bool := decide (2 ≤ payload.length) && decide (byteAt payload 0 ≤ 4)

/-- TABLE_WRITE that names no writable table (R165; log entry 23). -/
def execTableWriteReadOnly (k : KioskId) (r : Request) (s : State) : Host.Outcome State Fault Refusal :=
  .next <|
    if namesWritable r.payload then s
    else s.serveManage k kindTableWrite r true fun t => t.refuse k kindTableWrite r .badRequest

/-- TABLE_WRITE_NEXT (R165; log entry 24). -/
def execTableWriteNext (k : KioskId) (r : Request) (s : State) : Host.Outcome State Fault Refusal :=
  .next <|
    s.serveManage k kindTableWriteNext r true fun t =>
      match (t.kiosk k).cursor with
      | none => t.refuse k kindTableWriteNext r .badState
      | some (tab, i) => t.writeRecord k kindTableWriteNext r tab i r.payload

end Sys2Proof.Machine
end

