-- ==== Sys2Proof/Machine/Management.lean ====
section
/-! DEFINITION. The management requests apart from the tables (chapter 11, R14, R15, R24, R148, R155), and the start-up
and store events. -/

namespace Sys2Proof.Machine

/-! ### Lock (R163) -/

/-- R163: the port becomes LOCKED with no cursor, and is no notice port any more. -/
def State.lockPort (s : State) (k : KioskId) : State :=
  (s.dropNoticePort k).modKiosk k fun p => { p with unlocked := false, cursor := none }

/-- R163: an UNLOCK of eight bytes. -/
def State.tryUnlock (s : State) (k : KioskId) (r : Request) : State :=
  if r.payload = s.store.code then (s.reply k kindUnlock r .ok []).modKiosk k fun p => { p with unlocked := true }
  else ((s.reply k kindUnlock r .badCode []).lockPort k).penalize k .badCode

/-- UNLOCK (R163): the one management request a LOCKED port serves. -/
def execUnlock (k : KioskId) (r : Request) (s : State) : Host.Outcome State Fault Refusal :=
  .next <|
    s.serve k kindUnlock r fun t =>
      if service r.channel ≠ serviceManage then t.refuse k kindUnlock r .badRequest
      else if r.payload.length ≠ 8 then t.refuse k kindUnlock r .badRequest
      else t.tryUnlock k r

/-- LOCK (R163). -/
def execLock (k : KioskId) (r : Request) (s : State) : Host.Outcome State Fault Refusal :=
  .next <|
    s.serveManage k kindLock r (decide (r.payload.length = 0)) fun t => (t.reply k kindLock r .ok []).lockPort k

/-! ### Status reads (R166) -/

/-- Store state by its code (R150). -/
def Store.stateCode (st : Store) : Nat :=
  if st.writing.isSome then 2 else if st.contents.isNone then 1 else 0

/-- R166, R150: the fields of STATUS_READ. -/
def State.statusFields (s : State) : List Byte :=
  be16 s.free.length ++ (match s.free with | b :: _ => be16 b.val | [] => [0xFF#8, 0xFF#8]) ++
    [byte (bitValue s.tight 0)] ++ be16 s.flags.toNat ++ be16 s.noticeMask.toNat ++
    [optByte (s.noticePort.map Fin.val), byte s.store.stateCode, byte s.store.rate.val]

/-- STATUS_READ (R166). -/
def execStatusRead (k : KioskId) (r : Request) (s : State) : Host.Outcome State Fault Refusal :=
  .next <|
    s.serveManage k kindStatusRead r (decide (r.payload.length = 0)) fun t =>
      t.reply k kindStatusRead r .ok t.statusFields

/-- The one-byte operand that names a port, the form check passed. -/
def portOperand (n : Nat) (r : Request) : Option (Fin n) := toFin n (byteAt r.payload 0)

/-- R166, R150: the fields of PORT_STATUS. -/
def State.portFields (s : State) (k : KioskId) : List Byte :=
  let p := s.kiosk k
  [byte k.val, byte p.link.code, byte p.score, byte p.cleanCount, byte (bitValue p.unlocked 0), byte p.rate.val,
    p.causes] ++ be16 (s.holdingOf k) ++ be16 p.quota ++
    [byte p.control.length, byte p.replyCount, byte p.touch.length,
      byte (bitValue p.replyHeld 0 + p.line.code * 2),
      optByte (p.cursor.map fun c => c.1.code), optByte (p.cursor.map fun c => c.2)]

/-- PORT_STATUS (R166, R149). -/
def execPortStatus (k : KioskId) (r : Request) (s : State) : Host.Outcome State Fault Refusal :=
  .next <|
    s.serveManage k kindPortStatus r (decide (r.payload.length = 1)) fun t =>
      match portOperand 16 r with
      | none => t.refuse k kindPortStatus r .outOfRange
      | some n => (t.reply k kindPortStatus r .ok (t.portFields n)).modKiosk n fun p => { p with causes := 0#8 }

/-- Record and STATE of each job of a device queue. -/
def State.queueFields (s : State) (q : List JobId) : List Byte :=
  q.flatMap fun i => [byte i.val, byte (jobStateCode (s.job i))]

/-- R150: the first touch byte. STEP without CURRENT has no value: the low bits of a free byte (log entry 8). -/
def State.pollByte (s : State) (q : Poller) : Byte :=
  byte (bitValue q.running 0 +
    (match q.current with
      | some (_, step) => step.code
      | none => (Config.freeByte s.freeIndex).toNat % 4) * 2 +
    bitValue q.roundDue 3)

/-- R166, R150: the fields of DEVICE_STATUS. The panels stand in ascending index (DESIGN CHOICE, log entry 32). -/
def State.deviceFields (s : State) (d : DeviceId) : List Byte :=
  let p := s.device d
  [byte d.val, byte p.record.cls.code, byte p.service.code, optByte p.service.targetCode,
    byte (bitValue p.atn 0 + bitValue p.rdy 1 + bitValue p.atnLine 2 + bitValue p.hold 3),
    byte p.causes.toNat, optByte ((s.activeJob d).map Fin.val), byte p.queue.length] ++ s.queueFields p.queue ++
    [byte (p.scan.phase.code + bitValue p.scan.watermark 2 + bitValue p.scan.flush 3), s.pollByte p.poller,
      optByte (p.poller.current.map fun c => c.1.val), byte (s.namedPanels d).length] ++
    (s.namedPanels d).flatMap fun n => [byte n.val, byte (s.panel n).causes.toNat]

/-- R166: the cause sets of a port and of the panels that name it are emptied. -/
def State.emptyCauses (s : State) (d : DeviceId) : State :=
  (s.namedPanels d).foldl (fun t n => t.modPanel n fun e => { e with causes := 0#2 })
    (s.modDevice d fun p => { p with causes := 0#4 })

/-- DEVICE_STATUS (R166, R158). -/
def execDeviceStatus (k : KioskId) (r : Request) (s : State) : Host.Outcome State Fault Refusal :=
  .next <|
    s.serveManage k kindDeviceStatus r (decide (r.payload.length = 1)) fun t =>
      match portOperand 8 r with
      | none => t.refuse k kindDeviceStatus r .outOfRange
      | some d => ((t.reply k kindDeviceStatus r .ok (t.deviceFields d)).emptyCauses d).advanceFree 1

/-! ### Flags and notices (R167, R168) -/

/-- The flag set a request carries, bits 13–15 ignored. -/
def flagOperand (r : Request) : FlagSet := BitVec.ofNat 13 (word16 r.payload 0)

/-- A port is in FAULT. -/
def ServiceState.isFault : ServiceState → Bool
  | .fault _ => true
  | _ => false

/-- R167: the level-bound flags whose condition holds. -/
def State.boundFlags (s : State) : FlagSet :=
  (if allKiosks.any fun k => decide ((s.kiosk k).link = .isolated) then Flag.kioskIsolated.mask else 0#13) |||
    (if allDevices.any fun d => (s.device d).service.isFault then Flag.deviceFault.mask else 0#13) |||
    (if allPanels.any fun p => (s.panel p).enabled && decide ((s.panel p).presence = .absent) then
      Flag.panelAbsent.mask else 0#13)

/-- FLAGS_CLEAR (R167). -/
def execFlagsClear (k : KioskId) (r : Request) (s : State) : Host.Outcome State Fault Refusal :=
  .next <|
    s.serveManage k kindFlagsClear r (decide (r.payload.length = 2)) fun t =>
      (t.reply k kindFlagsClear r .ok []).setFlags (t.flags &&& ~~~(flagOperand r &&& ~~~t.boundFlags))

/-- R168: a notice port that is another port stops being it. -/
def State.dropOldNotice (s : State) (k : KioskId) : State :=
  match s.noticePort with
  | some old => if old = k then s else s.dropNoticePort old
  | none => s

/-- R168: a nonzero set: the old notice port stops, the requester becomes it, and a flag already set makes a NOTICE. -/
def State.takeNotice (s : State) (k : KioskId) (mask : FlagSet) : State :=
  let t := (s.dropOldNotice k).setNotice (some k) mask
  if t.flags &&& mask = 0#13 then t else t.handNotice k

/-- NOTICE_SET (R168). -/
def execNoticeSet (k : KioskId) (r : Request) (s : State) : Host.Outcome State Fault Refusal :=
  .next <|
    s.serveManage k kindNoticeSet r (decide (r.payload.length = 2)) fun t =>
      let u := t.reply k kindNoticeSet r .ok []
      if flagOperand r = 0#13 then u.dropNoticePort k else u.takeNotice k (flagOperand r)

/-! ### Settings store (R169, R171) -/

/-- R169: the write starts and a REPLY place is held. -/
def State.startWrite (s : State) (k : KioskId) (r : Request) (rate : Fin 4) : State :=
  (s.setStore { s.store with
    writing := some { code := r.payload.take 8, rate := rate, port := k, channel := r.channel, tag := r.tag } }).modKiosk
    k fun p => { p with replyHeld := true }

/-- STORE_WRITE (R169). -/
def execStoreWrite (k : KioskId) (r : Request) (s : State) : Host.Outcome State Fault Refusal :=
  .next <|
    s.serveManage k kindStoreWrite r (decide (r.payload.length = 9)) fun t =>
      match toFin 4 (byteAt r.payload 8) with
      | none => t.refuse k kindStoreWrite r .badRequest
      | some rate => if t.store.writing.isSome then t.refuse k kindStoreWrite r .busy else t.startWrite k r rate

/-- R169: the held REPLY joins when its place is still held. -/
def State.answerWrite (s : State) (w : StoreWrite) : State :=
  if (s.kiosk w.port).replyHeld then
    (s.handControl w.port (.reply w.channel w.tag kindStoreWrite .ok [] .nothing)).modKiosk w.port fun p =>
      { p with replyHeld := false }
  else s

/-- STORE_WRITE_COMPLETE (R169). The flag is set before the REPLY joins (DESIGN CHOICE, log entry 33). -/
def execStoreWriteComplete (s : State) : Host.Outcome State Fault Refusal :=
  .next <|
    match s.store.writing with
    | none => s
    | some w =>
      ((s.setStore { contents := some (w.code, w.rate), writing := none, code := w.code, rate := w.rate }).raise
        .storeDone).answerWrite w

/-- R138, R171: a kiosk port starts at the store's default rate. -/
def KioskPort.startAt (rate : Fin 4) (p : KioskPort) : KioskPort := { p with recordRate := rate, rate := rate }

/-- R138, R171: the store read completes. A BLANK store stands for eight 0x00 bytes and rate code 2. -/
def State.started (s : State) : State :=
  let kept := s.store.contents.getD (blankCode, 2)
  { s with
    store := { s.store with code := kept.1, rate := kept.2 }
    kiosks := mapTable (KioskPort.startAt kept.2) s.kiosks
    starting := false }

/-- STORE_READ_COMPLETE (R171). -/
def execStoreReadComplete (s : State) : Host.Outcome State Fault Refusal := .next <| if s.starting then s.started else s

/-- R169: a POR during a write leaves the store BLANK. -/
def Store.afterPowerOn (st : Store) : Store :=
  { Store.reset with contents := if st.writing.isSome then none else st.contents }

/-- What POR keeps of a device port: the levels that drive its input pins (log entry 7). -/
def DevicePort.powerOn (p : DevicePort) : DevicePort := { DevicePort.reset with atnPin := p.atnPin, rdyPin := p.rdyPin }

/-- R171: every block at its POR values, the store read started; the store's contents, the spool's bytes, the input pins
and the commands that wait are kept (log entries 6 and 7). -/
def State.poweredOn (s : State) : State :=
  { State.reset with
    devices := mapTable DevicePort.powerOn s.devices
    mem := s.mem
    store := s.store.afterPowerOn
    pending := s.pending
    freeIndex := s.freeIndex }

/-- POWER_ON_RESET (R171). -/
def execPowerOnReset (s : State) : Host.Outcome State Fault Refusal := .next s.poweredOn

/-! ### Resets of the switch and of a port (R148, R170) -/

/-- An entry holds a reset of the kind asked about. -/
def ControlEntry.releases (a : AfterSend) (e : ControlEntry) : Bool := decide (e.after = a)

/-- R170: a SWITCH_RESET waits for its REPLY, in a control queue or on a line. -/
def State.switchResetWaits (s : State) : Bool :=
  allKiosks.any fun k =>
    (s.kiosk k).control.any (ControlEntry.releases .switchReset) || decide ((s.kiosk k).afterFrame = .switchReset)

/-- SWITCH_RESET (R170). -/
def execSwitchReset (k : KioskId) (r : Request) (s : State) : Host.Outcome State Fault Refusal :=
  .next <|
    s.serveManage k kindSwitchReset r (decide (r.payload.length = 0)) fun t =>
      if t.switchResetWaits then t.refuse k kindSwitchReset r .busy
      else t.handControl k (.reply r.channel r.tag kindSwitchReset .ok [] .switchReset)

/-- PORT_RESET (R148). -/
def execPortReset (k : KioskId) (r : Request) (s : State) : Host.Outcome State Fault Refusal :=
  .next <|
    s.serveManage k kindPortReset r (decide (r.payload.length = 1)) fun t =>
      match portOperand 16 r with
      | none => t.refuse k kindPortReset r .outOfRange
      | some n =>
        if n = k then t.handControl k (.reply r.channel r.tag kindPortReset .ok [] .portReset)
        else (t.reply k kindPortReset r .ok []).resetPort n

/-! ### Device service (R14, R15, R24, R155, R160) -/

/-- R14: the effect of a drain. -/
def State.drain (s : State) (d : DeviceId) : State :=
  match (s.device d).service with
  | .online =>
    if (s.device d).record.cls = .touch then s.leaveOnline d
    else s.modDevice d fun p => { p with service := if s.hasWork d then .draining else .offline }
  | .fault .online =>
    s.modDevice d fun p => { p with service := if s.hasWork d then .fault .draining else .fault .offline }
  | _ => s

/-- DEVICE_DRAIN (R14). The REPLY carries the state after the request. -/
def execDeviceDrain (k : KioskId) (r : Request) (s : State) : Host.Outcome State Fault Refusal :=
  .next <|
    s.serveManage k kindDeviceDrain r (decide (r.payload.length = 1)) fun t =>
      match portOperand 8 r with
      | none => t.refuse k kindDeviceDrain r .outOfRange
      | some d =>
        if (t.device d).service = .disabled then t.refuse k kindDeviceDrain r .badState
        else (t.reply k kindDeviceDrain r .ok ((t.drain d).drainFields r.payload)).drain d

/-- R15: the effect of a resume that is answered OK. -/
def State.resume (s : State) (d : DeviceId) : State :=
  match (s.device d).service with
  | .offline => s.becomeOnline d
  | .fault .offline => s.modDevice d fun p => { p with service := .fault .online }
  | _ => s

/-- R15: the states in which a resume is refused. -/
def ServiceState.refusesResume : ServiceState → Bool
  | .disabled | .draining | .fault .draining => true
  | .offline | .online | .fault .online | .fault .offline => false

/-- DEVICE_RESUME (R15). -/
def execDeviceResume (k : KioskId) (r : Request) (s : State) : Host.Outcome State Fault Refusal :=
  .next <|
    s.serveManage k kindDeviceResume r (decide (r.payload.length = 1)) fun t =>
      match portOperand 8 r with
      | none => t.refuse k kindDeviceResume r .outOfRange
      | some d =>
        if (t.device d).service.refusesResume then t.refuse k kindDeviceResume r .badState
        else (t.reply k kindDeviceResume r .ok []).resume d

/-- R24, R160, R103: the effect of a device reset. The ACTIVE job's ending is decided first, so that a byte withdrawn
from the holding stage leaves its count. -/
def State.resetDevice (s : State) (d : DeviceId) : State :=
  let t := match s.activeJob d with
    | some i => s.decideEnd i .failedDeviceReset
    | none => s
  let u := t.modDevice d DevicePort.resetEngine
  if (s.device d).record.cls = .touch then (u.releasePanels (s.namedPanels d)).restartPanels (s.namedPanels d) else u

/-- DEVICE_RESET (R24, R160). -/
def execDeviceReset (k : KioskId) (r : Request) (s : State) : Host.Outcome State Fault Refusal :=
  .next <|
    s.serveManage k kindDeviceReset r (decide (r.payload.length = 1)) fun t =>
      match portOperand 8 r with
      | none => t.refuse k kindDeviceReset r .outOfRange
      | some d => (t.reply k kindDeviceReset r .ok []).resetDevice d

/-- R155: the break starts, or waits for a character still in the shift stage (R154, log entry 13). -/
def DevicePort.sendBreak (p : DevicePort) : DevicePort := { p with brk := if p.shift.isNone then .running else .requested }

/-- DEVICE_BREAK (R155). -/
def execDeviceBreak (k : KioskId) (r : Request) (s : State) : Host.Outcome State Fault Refusal :=
  .next <|
    s.serveManage k kindDeviceBreak r (decide (r.payload.length = 1)) fun t =>
      match portOperand 8 r with
      | none => t.refuse k kindDeviceBreak r .outOfRange
      | some d =>
        if (t.device d).service ≠ .offline then t.refuse k kindDeviceBreak r .badState
        else if (t.device d).brk ≠ .none then t.refuse k kindDeviceBreak r .busy
        else (t.reply k kindDeviceBreak r .ok []).modDevice d DevicePort.sendBreak

end Sys2Proof.Machine
end

