-- ==== Sys2Proof/Machine/Dispatch.lean ====
section
/-! DEFINITION. The meaning of each command, one arm per constructor. -/

namespace Sys2Proof.Machine

def exec (i : Instr) (s : State) : Host.Outcome State Fault Refusal :=
  match i with
  | .powerOnReset => Sys2Proof.Machine.execPowerOnReset s
  | .storeReadComplete => Sys2Proof.Machine.execStoreReadComplete s
  | .frameCheckFailed k taken => Sys2Proof.Machine.execFrameCheckFailed k taken s
  | .badFrameRequest k kind r => Sys2Proof.Machine.execBadFrameRequest k kind r s
  | .kioskBreak k => Sys2Proof.Machine.execKioskBreak k s
  | .cleanPeriod k => Sys2Proof.Machine.execCleanPeriod k s
  | .jobOpen k r => Sys2Proof.Machine.execJobOpen k r s
  | .jobData k r => Sys2Proof.Machine.execJobData k r s
  | .jobClose k r => Sys2Proof.Machine.execJobClose k r s
  | .jobAbort k r => Sys2Proof.Machine.execJobAbort k r s
  | .jobQuery k r => Sys2Proof.Machine.execJobQuery k r s
  | .unlock k r => Sys2Proof.Machine.execUnlock k r s
  | .lock k r => Sys2Proof.Machine.execLock k r s
  | .tableRead k r => Sys2Proof.Machine.execTableRead k r s
  | .tableReadNext k r => Sys2Proof.Machine.execTableReadNext k r s
  | .tableWriteRoute k channel tag index record => Sys2Proof.Machine.execTableWriteRoute k channel tag index record s
  | .tableWritePanel k channel tag index record => Sys2Proof.Machine.execTableWritePanel k channel tag index record s
  | .tableWriteZone k channel tag index record => Sys2Proof.Machine.execTableWriteZone k channel tag index record s
  | .tableWriteDevice k channel tag index record => Sys2Proof.Machine.execTableWriteDevice k channel tag index record s
  | .tableWriteKiosk k channel tag index record => Sys2Proof.Machine.execTableWriteKiosk k channel tag index record s
  | .tableWriteSpool k channel tag record => Sys2Proof.Machine.execTableWriteSpool k channel tag record s
  | .tableWriteReadOnly k r => Sys2Proof.Machine.execTableWriteReadOnly k r s
  | .tableWriteNext k r => Sys2Proof.Machine.execTableWriteNext k r s
  | .statusRead k r => Sys2Proof.Machine.execStatusRead k r s
  | .portStatus k r => Sys2Proof.Machine.execPortStatus k r s
  | .deviceStatus k r => Sys2Proof.Machine.execDeviceStatus k r s
  | .flagsClear k r => Sys2Proof.Machine.execFlagsClear k r s
  | .noticeSet k r => Sys2Proof.Machine.execNoticeSet k r s
  | .storeWrite k r => Sys2Proof.Machine.execStoreWrite k r s
  | .storeWriteComplete => Sys2Proof.Machine.execStoreWriteComplete s
  | .switchReset k r => Sys2Proof.Machine.execSwitchReset k r s
  | .portReset k r => Sys2Proof.Machine.execPortReset k r s
  | .deviceDrain k r => Sys2Proof.Machine.execDeviceDrain k r s
  | .deviceResume k r => Sys2Proof.Machine.execDeviceResume k r s
  | .deviceReset k r => Sys2Proof.Machine.execDeviceReset k r s
  | .deviceBreak k r => Sys2Proof.Machine.execDeviceBreak k r s
  | .transmitStart k => Sys2Proof.Machine.execTransmitStart k s
  | .frameTransmitEnd k => Sys2Proof.Machine.execFrameTransmitEnd k s
  | .breakEchoEnd k => Sys2Proof.Machine.execBreakEchoEnd k s
  | .lineGapEnd k => Sys2Proof.Machine.execLineGapEnd k s
  | .atnLineChange d high => Sys2Proof.Machine.execAtnLineChange d high s
  | .atnBlankingExpiry d => Sys2Proof.Machine.execAtnBlankingExpiry d s
  | .faultLimitExpiry d => Sys2Proof.Machine.execFaultLimitExpiry d s
  | .rdyChange d high => Sys2Proof.Machine.execRdyChange d high s
  | .characterSent d => Sys2Proof.Machine.execCharacterSent d s
  | .deviceBreakEnd d => Sys2Proof.Machine.execDeviceBreakEnd d s
  | .underrunTimeoutExpiry d => Sys2Proof.Machine.execUnderrunTimeoutExpiry d s
  | .deviceCharReceived d data ninth stopMark => Sys2Proof.Machine.execDeviceCharReceived d data ninth stopMark s
  | .firstByteTimeoutExpiry d => Sys2Proof.Machine.execFirstByteTimeoutExpiry d s
  | .endGapReached d => Sys2Proof.Machine.execEndGapReached d s
  | .flushEnd d => Sys2Proof.Machine.execFlushEnd d s
  | .pollIntervalExpiry d => Sys2Proof.Machine.execPollIntervalExpiry d s
  | .replyTimeoutExpiry d => Sys2Proof.Machine.execReplyTimeoutExpiry d s
  | .replyIdleLimit d => Sys2Proof.Machine.execReplyIdleLimit d s
  | .settlingEnd d => Sys2Proof.Machine.execSettlingEnd d s
  | .kioskCharReceived k char framing => Sys2Proof.Machine.execKioskCharReceived k char framing s
  | .deviceLineReturnToMark d => Sys2Proof.Machine.execDeviceLineReturnToMark d s

end Sys2Proof.Machine
end

