-- ==== Sys2Proof/Safety.lean ====
section
/-! DEFINITION. What a state of the switch is held to: the laws that the chapters state of every moment (R1, R11,
R12, R38, R46, R124–R126, R144–R147) and the ranges of the stored fields. The obligations say that reset has them and
that every step keeps them. -/

namespace Sys2Proof.Machine

/-! ### Spool -/

/-- The block chain of a record. -/
def chainOf : Option Job → List BlockId
  | some j => j.allocation
  | none => []

/-- Every block that is on the free list or in a chain, once for each place. -/
def State.blocks (s : State) : List BlockId := s.free ++ allJobs.flatMap fun i => chainOf (s.job i)

/-- R38: each block is on the free list or in exactly one chain, at exactly one place. -/
def BlocksInv (s : State) : Prop := s.blocks.Perm allBlocks

/-- The spool's memory has its one form. -/
def MemoryInv (s : State) : Prop := Memory.wf s.mem = true

/-! ### Jobs -/

/-- R46: the counts of a job stand in order; a job still receiving has the limit of its top. -/
def Job.ok (j : Job) : Prop :=
  j.sent ≤ j.received ∧
    (j.kind = .print →
      j.received ≤ j.creditLimit ∧ (j.declaredLength ≠ 0 → j.creditLimit ≤ j.declaredLength) ∧
        (j.complete = false → j.creditLimit = j.limitNow))

/-- R46 of every live job. -/
def CountsInv (s : State) : Prop := ∀ i j, s.job i = some j → j.ok

/-- R11, R12: a device queue names each job once, at most 16, exactly the live jobs bound to the port, and at most one
of them is ACTIVE. -/
def QueuesInv (s : State) : Prop :=
  ∀ d, (s.device d).queue.Nodup ∧ (s.device d).queue.length ≤ Config.queueCap ∧
    (∀ i, i ∈ (s.device d).queue ↔ ∃ j, s.job i = some j ∧ j.device = d) ∧
    (∀ i i' j j', s.job i = some j → s.job i' = some j' → j.device = d → j'.device = d → j.state = .active →
      j'.state = .active → i = i')

/-! ### Kiosk ports -/

/-- R144–R147: the score, the clean-period count and the lock as the link state has them. -/
def KioskPort.linkOk (p : KioskPort) : Prop :=
  match p.link with
  | .normal => p.score ≤ 127 ∧ p.cleanCount = 0
  | .degraded => 128 ≤ p.score ∧ p.score ≤ 255 ∧ p.cleanCount = 0
  | .isolated => p.score = 0 ∧ p.cleanCount ≤ 127 ∧ p.unlocked = false ∧ p.cursor = none

/-- R124, R126, R140, R40: the caps of the touch queue and of the REPLY entries with the held place, the frame being
gathered and the quota. -/
def KioskPort.capsOk (p : KioskPort) : Prop :=
  p.touch.length ≤ Config.touchCap ∧ p.replyCount + (if p.replyHeld then 1 else 0) ≤ Config.replyCap ∧
    p.gathered.wf = true ∧ p.quota ≤ 2048

/-- NOTICE entries of a control queue. -/
def noticesIn (c : List ControlEntry) : Nat := c.countP ControlEntry.isNotice

/-- CREDIT entries of a control queue for a slot. -/
def creditsIn (c : List ControlEntry) (slot : SlotId) : Nat := c.countP (ControlEntry.isCreditFor slot)

/-- JOB_END entries of a control queue for a slot. -/
def jobEndsIn (c : List ControlEntry) (slot : SlotId) : Nat := c.countP (ControlEntry.isJobEndFor slot)

/-- R125: the caps of the control queue: its entries, the NOTICE, and for each slot one CREDIT or one JOB_END, never
both. -/
def KioskPort.controlOk (p : KioskPort) : Prop :=
  p.control.length ≤ Config.controlCap ∧ noticesIn p.control ≤ 1 ∧
    ∀ slot, creditsIn p.control slot + jobEndsIn p.control slot ≤ 1

/-- R125, R1: a slot whose JOB_END waits has no live job. -/
def JobEndsInv (s : State) : Prop := ∀ k slot, s.jobEndWaits k slot = true → s.job (jobIx k slot) = none

/-- Every kiosk port is in order. -/
def PortsInv (s : State) : Prop :=
  (∀ k, (s.kiosk k).linkOk ∧ (s.kiosk k).capsOk ∧ (s.kiosk k).controlOk) ∧ JobEndsInv s

/-! ### Tables -/

def RouteEntry.ok (e : RouteEntry) : Prop := e.hits ≤ 65535

/-- R90, R105: the ranges of a panel entry. -/
def Panel.ok (p : Panel) : Prop :=
  p.address ≠ 0x00#8 ∧ p.address ≠ 0xFF#8 ∧ -2048 ≤ p.offsetX ∧ p.offsetX ≤ 2047 ∧ -2048 ≤ p.offsetY ∧
    p.offsetY ≤ 2047 ∧ 2048 ≤ p.gainX ∧ p.gainX ≤ 8191 ∧ 2048 ≤ p.gainY ∧ p.gainY ≤ 8191 ∧ p.missRun ≤ 8 ∧
    p.clamps ≤ 65535

/-- R109: the ranges of a zone entry. -/
def Zone.ok (z : Zone) : Prop :=
  z.x0 ≤ z.x1 ∧ z.x1 ≤ 4095 ∧ z.y0 ≤ z.y1 ∧ z.y1 ≤ 4095 ∧ 1 ≤ z.width ∧ z.width ≤ 32767 ∧ 1 ≤ z.height ∧
    z.height ≤ 32767

/-- A field of one byte that is stored as 1 when written as 0 (R162). -/
def oneToByte (n : Nat) : Prop := 1 ≤ n ∧ n ≤ 255

/-- R161, R162: the ranges of a device record. -/
def DeviceRecord.ok (r : DeviceRecord) : Prop :=
  (r.format = .multidrop → r.cls = .touch) ∧ r.divider ≤ 4095 ∧ r.startThreshold ≤ 255 ∧ oneToByte r.underrunTimeout ∧
    oneToByte r.firstByteTimeout ∧ 2 ≤ r.endGap ∧ r.endGap ≤ 255 ∧ oneToByte r.faultLimit ∧ oneToByte r.holdSet ∧
    oneToByte r.holdClear ∧ oneToByte r.pollInterval ∧ oneToByte r.replyTimeout

/-- R41: the ranges of the spool record. -/
def SpoolRecord.ok (r : SpoolRecord) : Prop := r.tightSet ≤ 31 ∧ r.tightClear ≤ 31

/-- Every stored entry is in its ranges. -/
def TablesInv (s : State) : Prop :=
  (∀ e, (s.route e).ok) ∧ (∀ p, (s.panel p).ok) ∧ (∀ z, (s.zone z).ok) ∧ (∀ d, (s.device d).record.ok) ∧
    s.spoolRecord.ok

end Sys2Proof.Machine
end

