-- ==== Sys2Proof/Certificates/Slice0/Obligations.lean ====
section
/-! DEFINITION. The statements about the switch. In every statement about a request, `s.takes k kind r` says that the
port takes the request's good frame now, and `G` is the state the good frame leaves (R142, step 1). -/

section

open Sys2Proof Sys2Proof.Machine

/-! ### The machine as a whole -/

/-- A step runs the command at the front of the queue on the queue's rest; an empty queue idles (log entry 1). -/
def Obligations.StepRunsTheFrontCommand : Prop :=
  (∀ (c : Instr) (s : State), step { s with pending := c :: s.pending } = exec c s) ∧
    (∀ (c : Instr) (rest : List Instr) (s : State), s.pending = c :: rest → step s = exec c { s with pending := rest }) ∧
    ∀ s : State, s.pending = [] → step s = .next s

/-- Every command answers a next state and leaves the queue alone: nothing faults or refuses (log entry 25). -/
def Obligations.EveryCommandCompletes : Prop :=
  ∀ (c : Instr) (s : State), ∃ t, exec c s = .next t ∧ t.pending = s.pending

/-- The values that the spec gives for power-on reset. -/
def Obligations.ResetValues : Prop :=
  (∀ k, (State.reset.kiosk k).link = .normal ∧ (State.reset.kiosk k).score = 0 ∧ (State.reset.kiosk k).cleanCount = 0 ∧
      (State.reset.kiosk k).unlocked = false ∧ (State.reset.kiosk k).cursor = none ∧
      (State.reset.kiosk k).causes = 0#8 ∧ (State.reset.kiosk k).echoPending = false ∧
      (State.reset.kiosk k).control = [] ∧ (State.reset.kiosk k).touch = [] ∧ (State.reset.kiosk k).line = .idle ∧
      (State.reset.kiosk k).replyHeld = false ∧ (State.reset.kiosk k).cleanTimer = .stopped ∧
      (State.reset.kiosk k).source = .none ∧ (State.reset.kiosk k).scanLast = 2 ∧ (State.reset.kiosk k).quota = 256) ∧
    (∀ d, (State.reset.device d).record =
        { cls := .unused, format := .f8N1, prescale8 := false, divider := 15, rdyLow := false, atnLow := false,
          holdLow := false, wakeOnActivity := false, resetBreak := false, atnBlanking := 1, holdMode := .auto,
          startThreshold := 0, underrunTimeout := 10, firstByteTimeout := 50, endGap := 16, faultLimit := 30,
          holdSet := 24, holdClear := 8, pollInterval := 10, replyTimeout := 5 } ∧
      (State.reset.device d).service = .disabled ∧ (State.reset.device d).queue = [] ∧
      (State.reset.device d).atn = false ∧ (State.reset.device d).holding = none ∧
      (State.reset.device d).shift = none ∧ (State.reset.device d).brk = .none ∧
      (State.reset.device d).causes = 0#4 ∧ (State.reset.device d).scan.phase = .none ∧
      (State.reset.device d).scan.watermark = false ∧ (State.reset.device d).scan.flush = false ∧
      (State.reset.device d).underrun = .stopped ∧ (State.reset.device d).faultLimit = .stopped ∧
      (State.reset.device d).scan.firstByte = .stopped ∧ (State.reset.device d).scan.gap = .stopped ∧
      (State.reset.device d).scan.commandLeft = 0 ∧ (State.reset.device d).poller.running = false ∧
      (State.reset.device d).poller.pending = [] ∧ (State.reset.device d).poller.current = none ∧
      (State.reset.device d).poller.roundDue = false ∧ (State.reset.device d).poller.interval = .stopped) ∧
    (∀ i, State.reset.job i = none) ∧
    (∀ e, State.reset.route e =
      { enabled := false, matchValue := 0#8, mask := 0#8, ports := 0#16, action := .deny, device := 0, hits := 0 }) ∧
    (∀ p, State.reset.panel p =
      { enabled := false, device := 0, address := 0x01#8, offsetX := 0, offsetY := 0, gainX := 4096, gainY := 4096,
        swap := false, mirrorX := false, mirrorY := false, moveSuppress := false, presence := .unknown, missRun := 0,
        clamps := 0, causes := 0#2 }) ∧
    (∀ z, State.reset.zone z =
      { enabled := false, panel := 0, x0 := 0, y0 := 0, x1 := 0, y1 := 0, kiosk := 0, width := 1, height := 1 }) ∧
    (∀ c, State.reset.contact c = .free) ∧ State.reset.free = List.finRange 2048 ∧ State.reset.tight = false ∧
    State.reset.grantPointer = 47 ∧
    State.reset.spoolRecord = { tightSet := 4, tightClear := 8, onEntry := true, onExit := false } ∧
    State.reset.flags = 0#13 ∧ State.reset.noticeMask = 0#13 ∧ State.reset.noticePort = none ∧
    State.reset.starting = true

/-- Reset has the invariants that every step keeps. -/
def Obligations.ResetMeetsTheInvariants : Prop :=
  MemoryInv State.reset ∧ BlocksInv State.reset ∧ CountsInv State.reset ∧ QueuesInv State.reset ∧
    PortsInv State.reset ∧ TablesInv State.reset

/-- The spool's memory keeps its one form. -/
def Obligations.MemoryStaysCanonical : Prop := ∀ s t, MemoryInv s → step s = .next t → MemoryInv t

/-- R38: each of the 2048 blocks stays on the free list or in one chain, at one place. -/
def Obligations.BlocksStayAccounted : Prop := ∀ s t, BlocksInv s → step s = .next t → BlocksInv t

/-- R46: SENT ≤ RECEIVED ≤ CREDIT_LIMIT ≤ a declared length stays so for every live job. -/
def Obligations.CountsStayInOrder : Prop := ∀ s t, CountsInv s → step s = .next t → CountsInv t

/-- R11, R12: the device queues name the live jobs once each, at most 16 a port, with at most one ACTIVE. -/
def Obligations.QueuesMatchTheJobs : Prop := ∀ s t, QueuesInv s → step s = .next t → QueuesInv t

/-- R144–R147, R124–R126: score, count and lock agree with the link state; the touch queue, the REPLY entries with the
held place and the control queue stay within their caps: 16 entries, one NOTICE, and for each slot one CREDIT or one
JOB_END, with no live job beside the JOB_END. -/
def Obligations.PortsStayInOrder : Prop := ∀ s t, PortsInv s → step s = .next t → PortsInv t

/-- R90, R105, R109, R110, R161, R162, R41: every stored entry stays in its ranges. -/
def Obligations.TablesStayInRange : Prop := ∀ s t, TablesInv s → step s = .next t → TablesInv t

/-! ### What the part computes -/

/-- R26. -/
def Obligations.RouteEntryMatches : Prop :=
  ∀ (e : RouteEntry) (ch : Byte),
    (e.matches ch = true ↔ ∀ i, i < 8 → e.mask.getLsbD i = true → ch.getLsbD i = e.matchValue.getLsbD i) ∧
      (e.mask = 0xFF#8 → (e.matches ch = true ↔ ch = e.matchValue)) ∧
      (e.mask = 0xE0#8 → (e.matches ch = true ↔ service ch = service e.matchValue)) ∧
      (e.mask = 0xFE#8 → (e.matches ch = true ↔ ch.toNat / 2 = e.matchValue.toNat / 2)) ∧
      (e.mask = 0xFC#8 → (e.matches ch = true ↔ ch.toNat / 4 = e.matchValue.toNat / 4)) ∧
      (e.mask = 0x00#8 → e.matches ch = true) ∧
      (∀ m : Byte, m &&& e.mask = e.matchValue &&& e.mask → RouteEntry.matches { e with matchValue := m } ch = e.matches ch) ∧
      (e.matchValue &&& e.mask &&& 0xE0#8 ≠ 0x20#8 &&& e.mask → e.matchValue &&& e.mask &&& 0xE0#8 ≠ 0x40#8 &&& e.mask →
        service ch = servicePrint ∨ service ch = serviceScan → e.matches ch = false)

/-- R106. In its table's sixth row the rule's own quotient is 12285 (50319361 = 12285 × 4096 + 1), where the table
prints 12,284; CAL and the clamp are the table's in every row (log entry 30). -/
def Obligations.CalibrationOfAnAxis : Prop :=
  (∀ (raw : Nat) (offset : Int) (gain : Nat), raw ≤ 4095 → -2048 ≤ offset → offset ≤ 2047 → 2048 ≤ gain → gain ≤ 8191 →
      -2047 ≤ (raw : Int) - offset ∧ (raw : Int) - offset ≤ 6143 ∧
        -16766977 ≤ ((raw : Int) - offset) * gain ∧ ((raw : Int) - offset) * gain ≤ 50317313 ∧
        ∃ q : Int,
          (q * 4096 ≤ ((raw : Int) - offset) * gain + 2048 ∧ ((raw : Int) - offset) * gain + 2048 < (q + 1) * 4096) ∧
            (q < 0 → calibrate raw offset gain = 0 ∧ calClamped raw offset gain = true) ∧
            (4095 < q → calibrate raw offset gain = 4095 ∧ calClamped raw offset gain = true) ∧
            (0 ≤ q → q ≤ 4095 → (calibrate raw offset gain : Int) = q ∧ calClamped raw offset gain = false)) ∧
    (∀ (p : Panel) (x y : Nat),
      p.canvas x y = p.orient (calibrate x p.offsetX p.gainX) (calibrate y p.offsetY p.gainY)) ∧
    (∀ row ∈ [((3000, 100, 4300), (3044, 3044, false)), ((1200, -50, 4096), (1250, 1250, false)),
        ((50, 100, 4300), (-52, 0, true)), ((0, 1, 4096), (-1, 0, true)), ((0, 0, 4096), (0, 0, false)),
        ((4095, -2048, 8191), (12285, 4095, true)), ((4095, 0, 4096), (4095, 4095, false)),
        (((4095, 0, 2048), (2048, 2048, false)) : (Nat × Int × Nat) × Int × Nat × Bool)],
      calQuotient row.1.1 row.1.2.1 row.1.2.2 = row.2.1 ∧ calibrate row.1.1 row.1.2.1 row.1.2.2 = row.2.2.1 ∧
        calClamped row.1.1 row.1.2.1 row.1.2.2 = row.2.2.2)

/-- R108. -/
def Obligations.OrientationOfAPoint : Prop :=
  ∀ (p : Panel) (x y : Nat), x ≤ 4095 → y ≤ 4095 →
    (p.swap = false → p.mirrorX = false → (p.orient x y).1 = x) ∧
      (p.swap = true → p.mirrorX = false → (p.orient x y).1 = y) ∧
      (p.swap = false → p.mirrorX = true → (p.orient x y).1 = 4095 - x) ∧
      (p.swap = true → p.mirrorX = true → (p.orient x y).1 = 4095 - y) ∧
      (p.swap = false → p.mirrorY = false → (p.orient x y).2 = y) ∧
      (p.swap = true → p.mirrorY = false → (p.orient x y).2 = x) ∧
      (p.swap = false → p.mirrorY = true → (p.orient x y).2 = 4095 - y) ∧
      (p.swap = true → p.mirrorY = true → (p.orient x y).2 = 4095 - x) ∧
      (p.orient x y).1 ≤ 4095 ∧ (p.orient x y).2 ≤ 4095 ∧
      (∀ rx ry, p.canvas rx ry = p.orient (calibrate rx p.offsetX p.gainX) (calibrate ry p.offsetY p.gainY)) ∧
      ∀ (a b c : Bool) (rx ry : Nat),
        (Panel.countClamp { p with swap := a, mirrorX := b, mirrorY := c } rx ry).clamps = (p.countClamp rx ry).clamps

/-- Section 7.4 (R114): a canvas point in the kiosk coordinates of a captured zone, axis by axis. -/
def Obligations.ZoneCoordinates : Prop :=
  (∀ (b : Binding) (pt : Nat × Nat), b.map pt = (mapAxis pt.1 b.x0 b.x1 b.width, mapAxis pt.2 b.y0 b.y1 b.height)) ∧
    (∀ c lo hi size : Nat, lo ≤ hi → hi ≤ 4095 → 1 ≤ size → size ≤ 32767 →
      (lo = hi → mapAxis c lo hi size = 0) ∧
        (lo < hi → mapAxis c lo hi size =
          (2 * ((if c < lo then lo else if hi < c then hi else c) - lo) * (size - 1) + (hi - lo)) / (2 * (hi - lo))) ∧
        mapAxis c lo hi size ≤ size - 1 ∧ (c ≤ lo → mapAxis c lo hi size = 0) ∧
        (lo < hi → hi ≤ c → mapAxis c lo hi size = size - 1) ∧
        2 * ((if c < lo then lo else if hi < c then hi else c) - lo) * (size - 1) + (hi - lo) ≤ 268357635) ∧
    ∀ row ∈ [((0, 0, 4095, 1920), 0), ((4095, 0, 4095, 1920), 1919), ((2048, 0, 4095, 1920), 960),
        ((101, 100, 102, 2), 1), ((5, 100, 102, 2), 0), ((299, 300, 300, 640), 0),
        (((3000, 0, 4095, 1), 0) : (Nat × Nat × Nat × Nat) × Nat)],
      mapAxis row.1.1 row.1.2.1 row.1.2.2.1 row.1.2.2.2 = row.2

/-- R141. -/
def Obligations.FrameCrc : Prop :=
  (∀ (reg : BitVec 16) (bit : Bool),
      crcBit reg bit = if reg.getLsbD 15 = bit then reg <<< 1 else (reg <<< 1) ^^^ 0x1021#16) ∧
    (∀ (reg : BitVec 16) (b : Byte),
      crcByte reg b = crcBit (crcBit (crcBit (crcBit (crcBit (crcBit (crcBit (crcBit reg (b.getLsbD 7)) (b.getLsbD 6))
        (b.getLsbD 5)) (b.getLsbD 4)) (b.getLsbD 3)) (b.getLsbD 2)) (b.getLsbD 1)) (b.getLsbD 0)) ∧
    crc16 [] = 0xFFFF#16 ∧ (∀ (bs : List Byte) (b : Byte), crc16 (bs ++ [b]) = crcByte (crc16 bs) b) ∧
    (∀ (ch kind tag : Byte) (payload : List Byte),
      let body := [ch, kind, tag, byte (payload.length / 256), byte payload.length] ++ payload
      frameBytes ch kind tag payload = body ++ [byte ((crc16 body).toNat / 256), byte (crc16 body).toNat]) ∧
    crc16 [0x31#8, 0x32#8, 0x33#8, 0x34#8, 0x35#8, 0x36#8, 0x37#8, 0x38#8, 0x39#8] = 0x29B1#16 ∧
    (∀ f : RxFrame, f.wf = true → f.framing = false → 7 ≤ f.count → f.count ≤ 263 → f.count = word16 f.chars 3 + 7 →
      RxFrame.firstFailure f =
        if (crc16 (f.chars.take (f.count - 2))).toNat = byteAt f.chars (f.count - 2) * 256 + byteAt f.chars (f.count - 1)
        then none else some .crcError) ∧
    (∀ e : TouchEntry, ∃ ch kind tag payload, e.frame = frameBytes ch kind tag payload) ∧
    (∀ (s : State) (e : ControlEntry), ∃ ch kind tag payload, s.controlFrame e = frameBytes ch kind tag payload) ∧
    ∀ (s : State) (slot : SlotId) (j : Job), ∃ ch kind tag payload, s.scanFrame slot j = frameBytes ch kind tag payload

/-- R150: the record that a table read sends decodes to the entry it was built from, the fields that a write ignores
apart. -/
def Obligations.RecordsRoundTrip : Prop :=
  (∀ e : RouteEntry, decodeRoute (encodeRoute e) = some { e with hits := 0 } ∧ (encodeRoute e).length = 8) ∧
    (∀ old p : Panel, p.ok →
      decodePanel old (encodePanel p) =
          some { p with presence := .unknown, missRun := 0, clamps := 0, causes := old.causes } ∧
        (encodePanel p).length = 16) ∧
    (∀ z : Zone, z.ok → decodeZone (encodeZone z) = some z ∧ (encodeZone z).length = 16) ∧
    (∀ d : DeviceRecord, d.ok → decodeDevice (encodeDevice d) = some d ∧ (encodeDevice d).length = 16) ∧
    (∀ p : KioskPort, p.quota ≤ 2048 →
      decodeKiosk (encodeKiosk p) = some (p.recordRate, p.quota) ∧ (encodeKiosk p).length = 4) ∧
    ∀ r : SpoolRecord, r.ok → decodeSpool (encodeSpool r) = r ∧ (encodeSpool r).length = 4

/-! ### Flags and the kiosk link -/

/-- Sections 11.5, 11.6, 8.2 (R167, R168, R129): raising a flag that is set changes nothing; raising a clear one sets
that flag alone and hands the notice port one NOTICE when the mask holds the flag and no NOTICE waits there. -/
def Obligations.RaisingAFlag : Prop :=
  ∀ (s : State) (f : Flag),
    (f.isIn s.flags = true → s.raise f = s) ∧
      (f.isIn s.flags = false →
        (∀ g : Flag, g.isIn (s.raise f).flags = (g.isIn s.flags || decide (g = f))) ∧
          (∀ k, (s.raise f).kiosk k =
            if s.noticePort = some k ∧ f.isIn s.noticeMask = true ∧ (s.kiosk k).control.any ControlEntry.isNotice = false
            then { s.kiosk k with control := (s.kiosk k).control ++ [.notice] } else s.kiosk k) ∧
          s.raise f = { s with kiosks := (s.raise f).kiosks, flags := (s.raise f).flags })

/-- Sections 9.2, 9.3 (R140, R143, R147): a break or a character on a kiosk link; nothing is received before the store
is read (log entry 27). A clean period counts on an ISOLATED port, and the 128th recovers it; on another port it changes
nothing (log entry 2). -/
def Obligations.KioskLineEvents : Prop :=
  (∀ (s : State) (k : KioskId) (c : Byte) (framing : Bool),
    (s.starting = false → (s.kiosk k).link ≠ .isolated →
        exec (.kioskBreak k) s = .next (s.setKiosk k
            { s.kiosk k with gathered := RxFrame.empty, cursor := none, echoPending := true }) ∧
          exec (.kioskCharReceived k c framing) s = .next (s.setKiosk k
            { s.kiosk k with gathered :=
              { chars := if (s.kiosk k).gathered.chars.length < 263 then (s.kiosk k).gathered.chars ++ [c]
                  else (s.kiosk k).gathered.chars
                count := (s.kiosk k).gathered.count + 1
                framing := (s.kiosk k).gathered.framing || framing } })) ∧
      (s.starting = false → (s.kiosk k).link = .isolated →
        exec (.kioskBreak k) s = .next (s.setKiosk k { s.kiosk k with cleanTimer := .running 1 }) ∧
          exec (.kioskCharReceived k c framing) s = .next (s.setKiosk k { s.kiosk k with cleanTimer := .running 1 })) ∧
      (s.starting = true → exec (.kioskBreak k) s = .next s ∧ exec (.kioskCharReceived k c framing) s = .next s)) ∧
  ∀ (s : State) (k : KioskId),
    ((s.kiosk k).link ≠ .isolated → exec (.cleanPeriod k) s = .next s) ∧
      ((s.kiosk k).link = .isolated → (s.kiosk k).cleanCount < 127 →
        exec (.cleanPeriod k) s = .next (s.setKiosk k { s.kiosk k with cleanCount := (s.kiosk k).cleanCount + 1 })) ∧
      ((s.kiosk k).link = .isolated → 127 ≤ (s.kiosk k).cleanCount →
        exec (.cleanPeriod k) s = .next ((s.setKiosk k
          { s.kiosk k with
            link := .normal, score := 0, cleanCount := 0, cleanTimer := .stopped, gathered := RxFrame.empty }).raise
          .kioskRecovered))

/-- Section 9.2 (R140, R141): the four checks in their order; a good frame passes them all. -/
def Obligations.FrameChecks : Prop :=
  (∀ f : RxFrame,
      (f.framing = true → RxFrame.firstFailure f = some .charFraming) ∧
        (f.framing = false → 263 < f.count → RxFrame.firstFailure f = some .overlength) ∧
        (f.framing = false → f.count ≤ 263 → f.count < 7 ∨ 256 < word16 f.chars 3 ∨ f.count ≠ word16 f.chars 3 + 7 →
          RxFrame.firstFailure f = some .lengthMismatch) ∧
        (f.framing = false → 7 ≤ f.count → f.count ≤ 263 → f.count = word16 f.chars 3 + 7 →
          (crc16 (f.chars.take (f.count - 2))).toNat ≠ word16 f.chars (f.count - 2) →
          RxFrame.firstFailure f = some .crcError)) ∧
    ∀ (kind : Byte) (r : Request), r.payload.length ≤ 256 →
      (goodFrame kind r).wf = true ∧ RxFrame.firstFailure (goodFrame kind r) = none

/-- Sections 9.2, 9.3 (R140, R144, R145): a frame that fails a check, below the isolating score: its cause latched,
the score raised by 8, and the flags of the levels it reaches. -/
def Obligations.FrameCheckFailureScores : Prop :=
  ∀ (s : State) (k : KioskId) (f : RxFrame) (c : KioskCause),
    s.starting = false → (s.kiosk k).link ≠ .isolated → f.wf = true → 0 < f.count →
    ((s.kiosk k).gathered = RxFrame.empty ∨ (s.kiosk k).gathered = f) → RxFrame.firstFailure f = some c →
    (s.kiosk k).score < 248 →
    exec (.frameCheckFailed k f) s = .next (
      let p := s.kiosk k
      let degrades := p.link = .normal ∧ 120 ≤ p.score
      let t := s.setKiosk k
        { p with
          gathered := RxFrame.empty, causes := p.causes ||| BitVec.ofNat 8 (2 ^ c.bit), score := p.score + 8,
          link := if degrades then .degraded else p.link }
      let u := if 88 ≤ p.score ∧ p.score < 96 then t.raise .kioskWarn else t
      if degrades then u.raise .kioskDegraded else u)

/-- Sections 9.3, 8.5 (R146, R137): a frame that fails a check at a score of 248 or more isolates the port. Its queues
are empty, its slots FREE, its contacts silenced, it is no notice port, and KIOSK_ISOLATED is set. -/
def Obligations.FrameCheckFailureIsolates : Prop :=
  ∀ (s : State) (k : KioskId) (f : RxFrame) (c : KioskCause),
    s.starting = false → (s.kiosk k).link ≠ .isolated → f.wf = true → 0 < f.count →
    ((s.kiosk k).gathered = RxFrame.empty ∨ (s.kiosk k).gathered = f) → RxFrame.firstFailure f = some c →
    248 ≤ (s.kiosk k).score →
    ∃ t, exec (.frameCheckFailed k f) s = .next t ∧
      t.kiosk k = { s.kiosk k with
        link := .isolated, score := 0, cleanCount := 0, cleanTimer := .running 1, unlocked := false, cursor := none,
        causes := 0#8, echoPending := false, gathered := RxFrame.empty, control := [], touch := [], replyHeld := false,
        line := .idle, source := .none, scanLast := 2, onLine := [], afterFrame := .nothing } ∧
      (∀ slot, t.job (jobIx k slot) = none) ∧ t.noticePort ≠ some k ∧ Flag.kioskIsolated.isIn t.flags = true ∧
      ∀ x b, t.contact x = .bound b → b.owner = k → b.visible = false ∧ b.upOwed = false

/-! ### Taking requests -/

/-- Sections 8.2, 9.2 (R126, R142): when a good frame is taken; what it does to its port; what reply room is; a request
of a port without it is dropped, and one that is not taken does nothing, nor does a frame under another row's name (log
entries 3, 23). -/
def Obligations.RequestsTakenOrDropped : Prop :=
  (∀ (s : State) (k : KioskId) (kind : Byte) (r : Request),
      s.takes k kind r = true ↔ s.starting = false ∧ (s.kiosk k).link ≠ .isolated ∧ r.payload.length ≤ 256 ∧
        ((s.kiosk k).gathered = RxFrame.empty ∨ (s.kiosk k).gathered = goodFrame kind r)) ∧
    (∀ p : KioskPort, p.takeGood = { p with
        gathered := RxFrame.empty, score := p.score - 1,
        link := if p.link = .degraded ∧ p.score ≤ 128 then .normal else p.link }) ∧
    (∀ p : KioskPort, p.replyRoom = true ↔
      (p.control.filter fun e => match e with | .reply _ _ _ _ _ _ => true | _ => false).length +
        (if p.replyHeld then 1 else 0) < 9) ∧
    (∀ row ∈ ([(kindJobOpen, Instr.jobOpen), (kindJobClose, Instr.jobClose), (kindJobAbort, Instr.jobAbort),
        (kindJobQuery, Instr.jobQuery), (kindUnlock, Instr.unlock), (kindLock, Instr.lock),
        (kindTableRead, Instr.tableRead), (kindTableReadNext, Instr.tableReadNext),
        (kindTableWriteNext, Instr.tableWriteNext), (kindStatusRead, Instr.statusRead),
        (kindPortStatus, Instr.portStatus), (kindDeviceStatus, Instr.deviceStatus), (kindFlagsClear, Instr.flagsClear),
        (kindNoticeSet, Instr.noticeSet), (kindStoreWrite, Instr.storeWrite), (kindSwitchReset, Instr.switchReset),
        (kindPortReset, Instr.portReset), (kindDeviceDrain, Instr.deviceDrain), (kindDeviceResume, Instr.deviceResume),
        (kindDeviceReset, Instr.deviceReset), (kindDeviceBreak, Instr.deviceBreak)] :
        List (Byte × (KioskId → Request → Instr))),
      ∀ (s : State) (k : KioskId) (r : Request),
        (s.takes k row.1 r = false → exec (row.2 k r) s = .next s) ∧
          (s.takes k row.1 r = true → (s.kiosk k).replyRoom = false →
            exec (row.2 k r) s = .next
              (((s.modKiosk k KioskPort.takeGood).latchKiosk k .requestDropped).raise .egressDrop))) ∧
    (∀ (s : State) (k : KioskId) (ch tag index : Byte) (record : List Byte),
      let dropped := ((s.modKiosk k KioskPort.takeGood).latchKiosk k .requestDropped).raise .egressDrop
      (∀ row ∈ ([(.route, Instr.tableWriteRoute), (.panel, Instr.tableWritePanel), (.zone, Instr.tableWriteZone),
          (.device, Instr.tableWriteDevice), (.kiosk, Instr.tableWriteKiosk)] :
          List (TableId × (KioskId → Byte → Byte → Byte → List Byte → Instr))),
        let r : Request := { channel := ch, tag := tag, payload := [byte row.1.code, index] ++ record }
        (s.takes k kindTableWrite r = false → exec (row.2 k ch tag index record) s = .next s) ∧
          (s.takes k kindTableWrite r = true → (s.kiosk k).replyRoom = false →
            exec (row.2 k ch tag index record) s = .next dropped)) ∧
        let r : Request := { channel := ch, tag := tag, payload := [4#8, 16#8] ++ record }
        (s.takes k kindTableWrite r = false → exec (.tableWriteSpool k ch tag record) s = .next s) ∧
          (s.takes k kindTableWrite r = true → (s.kiosk k).replyRoom = false →
            exec (.tableWriteSpool k ch tag record) s = .next dropped)) ∧
    ∀ (s : State) (k : KioskId) (kind : Byte) (r : Request),
      let dropped := ((s.modKiosk k KioskPort.takeGood).latchKiosk k .requestDropped).raise .egressDrop
      let bad := kind ≠ kindJobData ∧
        (2 < service r.channel ∨ (isJobKind kind = false ∧ isManageKind kind = false) ∨
          (isJobKind kind = true ∧ service r.channel = serviceManage) ∨
          (isManageKind kind = true ∧ service r.channel ≠ serviceManage))
      (s.takes k kindTableWrite r = false → exec (.tableWriteReadOnly k r) s = .next s) ∧
        (2 ≤ r.payload.length ∧ byteAt r.payload 0 ≤ 4 → exec (.tableWriteReadOnly k r) s = .next s) ∧
        (r.payload.length < 2 ∨ 4 < byteAt r.payload 0 → s.takes k kindTableWrite r = true →
          (s.kiosk k).replyRoom = false → exec (.tableWriteReadOnly k r) s = .next dropped) ∧
        (s.takes k kind r = false ∨ ¬ bad → exec (.badFrameRequest k kind r) s = .next s) ∧
        (bad → s.takes k kind r = true → (s.kiosk k).replyRoom = false →
          exec (.badFrameRequest k kind r) s = .next dropped) ∧
        (s.takes k kindJobData r = false → exec (.jobData k r) s = .next s)

/-- Section 9.2 (R142): a good frame whose service and KIND name no request is answered BAD_REQUEST. The byte 0xFF of a
field whose payload names nothing is log entry 9. -/
def Obligations.BadFrameRequestIsAnswered : Prop :=
  ∀ (s : State) (k : KioskId) (kind : Byte) (r : Request),
    kind ≠ kindJobData →
    (2 < service r.channel ∨ (isJobKind kind = false ∧ isManageKind kind = false) ∨
      (isJobKind kind = true ∧ service r.channel = serviceManage) ∨
      (isManageKind kind = true ∧ service r.channel ≠ serviceManage)) →
    s.takes k kind r = true → (s.kiosk k).replyRoom = true →
    exec (.badFrameRequest k kind r) s = .next (
      let G := s.modKiosk k KioskPort.takeGood
      G.setKiosk k { G.kiosk k with control := (G.kiosk k).control ++
        [.reply r.channel r.tag kind .badRequest
          (if kind = kindJobOpen then [r.payload.getD 0 0xFF#8, 0xFF#8, 0xFF#8, 0xFF#8]
            else if kind = kindJobClose then [r.payload.getD 0 0xFF#8, 0#8, 0#8, 0#8]
            else if kind = kindDeviceDrain then G.drainFields r.payload else []) .nothing] })

/-- Section 11.2 (R164): service, lock and form are checked in this order, and a refusal is a REPLY and nothing else.
The number of each row is the payload length that its KIND takes. -/
def Obligations.ManagementRefusals : Prop :=
  ∀ row ∈ ([(kindLock, Instr.lock, 0), (kindTableRead, Instr.tableRead, 2), (kindTableReadNext, Instr.tableReadNext, 0),
      (kindStatusRead, Instr.statusRead, 0), (kindPortStatus, Instr.portStatus, 1),
      (kindDeviceStatus, Instr.deviceStatus, 1), (kindFlagsClear, Instr.flagsClear, 2),
      (kindNoticeSet, Instr.noticeSet, 2), (kindStoreWrite, Instr.storeWrite, 9),
      (kindSwitchReset, Instr.switchReset, 0), (kindPortReset, Instr.portReset, 1),
      (kindDeviceDrain, Instr.deviceDrain, 1), (kindDeviceResume, Instr.deviceResume, 1),
      (kindDeviceReset, Instr.deviceReset, 1), (kindDeviceBreak, Instr.deviceBreak, 1)] :
      List (Byte × (KioskId → Request → Instr) × Nat)),
    ∀ (s : State) (k : KioskId) (r : Request), s.takes k row.1 r = true → (s.kiosk k).replyRoom = true →
      let G := s.modKiosk k KioskPort.takeGood
      (service r.channel ≠ serviceManage → exec (row.2.1 k r) s = .next (G.refuse k row.1 r .badRequest)) ∧
        (service r.channel = serviceManage → (s.kiosk k).unlocked = false →
          exec (row.2.1 k r) s = .next (G.refuse k row.1 r .locked)) ∧
        (service r.channel = serviceManage → (s.kiosk k).unlocked = true → r.payload.length ≠ row.2.2 →
          exec (row.2.1 k r) s = .next (G.refuse k row.1 r .badRequest))

/-! ### Jobs -/

/-- Sections 1.1, 2.2, 2.4 (R1, R27, R31-R36): which forms of a JOB_OPEN fail, which slot is occupied, which entry
decides a lookup and which class serves a kind; and the checks of a JOB_OPEN in their order, each with its REPLY. A
lookup that decides counts in HITS, refused or not. The fields that name nothing are 0xFF; the SLOT of an empty payload
is log entry 9. -/
def Obligations.JobOpenRefusals : Prop :=
  (∀ (ch : Byte) (payload : List Byte), parseOpen ch payload = none ↔
      (service ch ≠ servicePrint ∧ service ch ≠ serviceScan) ∨ 3 ≤ byteAt payload 0 ∨
        (service ch = servicePrint ∧ payload.length ≠ 5) ∨
        (service ch = serviceScan ∧
          (payload.length < 5 ∨ 64 < byteAt payload 4 ∨ payload.length ≠ 5 + byteAt payload 4))) ∧
    (∀ (s : State) (k : KioskId) (slot : SlotId), s.occupied k slot = true ↔ s.job (jobIx k slot) ≠ none ∨
      ∃ ch reason count le, ControlEntry.jobEnd ch slot reason count le ∈ (s.kiosk k).control) ∧
    (∀ (s : State) (ch : Byte) (k : KioskId),
      let decides := fun e : RouteId => (s.route e).enabled = true ∧ (s.route e).ports.getLsbD k.val = true ∧
        (s.route e).matches ch = true
      (∀ e, s.lookup ch k = some e ↔ decides e ∧ ∀ x, x < e → ¬ decides x) ∧
        (s.lookup ch k = none ↔ ∀ e, ¬ decides e)) ∧
    (∀ (c : DeviceClass) (kind : JobKind),
      c.serves kind = true ↔ (c = .printer ∧ kind = .print) ∨ (c = .scanner ∧ kind = .scan)) ∧
  ∀ (s : State) (k : KioskId) (r : Request), s.takes k kindJobOpen r = true → (s.kiosk k).replyRoom = true →
    let G := s.modKiosk k KioskPort.takeGood
    (parseOpen r.channel r.payload = none → exec (.jobOpen k r) s = .next (G.refuse k kindJobOpen r .badRequest)) ∧
      ∀ a, parseOpen r.channel r.payload = some a →
        (G.occupied k a.slot = true →
          exec (.jobOpen k r) s =
            .next (G.reply k kindJobOpen r .slotBusy [byte a.slot.val, 0xFF#8, 0xFF#8, 0xFF#8])) ∧
          (G.occupied k a.slot = false → (G.kiosk k).link = .degraded →
            exec (.jobOpen k r) s =
              .next (G.reply k kindJobOpen r .portDegraded [byte a.slot.val, 0xFF#8, 0xFF#8, 0xFF#8])) ∧
          (G.occupied k a.slot = false → (G.kiosk k).link ≠ .degraded → G.lookup r.channel k = none →
            exec (.jobOpen k r) s =
              .next (G.reply k kindJobOpen r .denied [byte a.slot.val, 0xFF#8, 0xFF#8, 0xFF#8])) ∧
          ∀ e, G.occupied k a.slot = false → (G.kiosk k).link ≠ .degraded → G.lookup r.channel k = some e →
            let E := G.route e
            let H := G.setRoute e { E with hits := min 65535 (E.hits + 1) }
            (E.action = .deny →
              exec (.jobOpen k r) s =
                .next (H.reply k kindJobOpen r .denied [byte a.slot.val, byte e.val, 0xFF#8, 0xFF#8])) ∧
              (E.action = .accept → (G.device E.device).record.cls.serves a.kind = false →
                exec (.jobOpen k r) s =
                  .next (H.reply k kindJobOpen r .noDevice [byte a.slot.val, byte e.val, byte E.device.val, 0xFF#8])) ∧
              (E.action = .accept → (G.device E.device).record.cls.serves a.kind = true →
                16 ≤ (G.device E.device).queue.length →
                exec (.jobOpen k r) s =
                  .next (H.reply k kindJobOpen r .queueFull [byte a.slot.val, byte e.val, byte E.device.val, 0xFF#8]))

/-- Sections 1.1.1, 2.4 (R2, R31): an admitted JOB_OPEN: the record, the queue's tail, the REPLY OK with the position;
then a print job's grant pass, and the port goes on. -/
def Obligations.JobOpenAdmits : Prop :=
  (∀ (ch : Byte) (slot : SlotId) (pr a b c : Byte), service ch = servicePrint →
      parseOpen ch [byte slot.val, pr, a, b, c] =
        some { slot := slot, priority := pr, kind := .print,
               declaredLength := a.toNat * 65536 + b.toNat * 256 + c.toNat, maxBlocks := 0, command := [] }) ∧
    (∀ (ch : Byte) (slot : SlotId) (pr a b : Byte) (command : List Byte), service ch = serviceScan →
      command.length ≤ 64 →
      parseOpen ch ([byte slot.val, pr, a, b, byte command.length] ++ command) =
        some { slot := slot, priority := pr, kind := .scan, declaredLength := 0,
               maxBlocks := max 1 (min (a.toNat * 256 + b.toNat) 2048), command := command }) ∧
    ∀ (s : State) (k : KioskId) (r : Request) (a : OpenArgs) (e : RouteId),
      s.takes k kindJobOpen r = true → (s.kiosk k).replyRoom = true →
      let G := s.modKiosk k KioskPort.takeGood
      let E := G.route e
      let D := G.device E.device
      parseOpen r.channel r.payload = some a → G.occupied k a.slot = false → (G.kiosk k).link ≠ .degraded →
      G.lookup r.channel k = some e → E.action = .accept → D.record.cls.serves a.kind = true → D.queue.length < 16 →
      exec (.jobOpen k r) s = .next (
        let i := jobIx k a.slot
        let job : Job :=
          { state := match a.kind with | .print => .loading | .scan => .ready
            kind := a.kind, channel := r.channel, device := E.device, priority := a.priority,
            declaredLength := a.declaredLength, complete := false, received := 0, sent := 0, creditLimit := 0,
            allocation := [], freedBlocks := 0, command := a.command, maxBlocks := a.maxBlocks, held := none,
            lineErrors := false, truncated := false, paused := false }
        let T := (((G.setRoute e { E with hits := min 65535 (E.hits + 1) }).setJob i (some job)).setDevice E.device
          { D with queue := D.queue ++ [i] }).reply k kindJobOpen r .ok
            [byte a.slot.val, byte e.val, byte E.device.val, byte D.queue.length]
        (match a.kind with | .print => T.grantPass | .scan => T).settle E.device)

/-- Section 4.2 (R56-R59): the cases of a JOB_DATA frame. -/
def Obligations.JobDataCases : Prop :=
  ∀ (s : State) (k : KioskId) (r : Request), s.takes k kindJobData r = true →
    let G := s.modKiosk k KioskPort.takeGood
    ((service r.channel ≠ servicePrint ∨ r.payload.length < 5 ∨ 3 ≤ byteAt r.payload 0) →
      exec (.jobData k r) s = .next (G.penalize k .creditViolation)) ∧
    ∀ slot : SlotId, service r.channel = servicePrint → 5 ≤ r.payload.length → byteAt r.payload 0 = slot.val →
      let i := jobIx k slot
      let o := word24 r.payload 1
      let n := r.payload.length - 4
      ((∀ j, G.job i = some j → j.kind = .scan) → exec (.jobData k r) s = .next (G.penalize k .creditViolation)) ∧
      ∀ j, G.job i = some j → j.kind = .print →
        (o + n ≤ j.received → exec (.jobData k r) s = .next G) ∧
          (j.received < o + n → j.creditLimit < o + n ∨ 16777215 < o + n →
            exec (.jobData k r) s = .next (G.penalize k .creditViolation)) ∧
          (j.received < o → o + n ≤ j.creditLimit → o + n ≤ 16777215 →
            exec (.jobData k r) s = .next ((G.endJob i .failedGap).settle j.device)) ∧
          (o ≤ j.received → j.received < o + n → o + n ≤ j.creditLimit → o + n ≤ 16777215 →
            exec (.jobData k r) s = .next (
              let W := G.writeData j.allocation j.freedBlocks j.received ((r.payload.drop 4).drop (j.received - o))
              let job : Job := { j with
                received := o + n,
                complete := j.complete || (decide (j.declaredLength ≠ 0) && decide (j.declaredLength ≤ o + n)) }
              (W.setJob i (some (job.testReady (G.device j.device).record))).settle j.device))

/-- Sections 3.1, 4.2 (R38, R39, R58): a byte written to a block is what is read there, and every other byte of the
spool reads as before; accepted bytes go, the byte at offset o, to chain position o / 128 − F, place o mod 128. -/
def Obligations.JobDataIsStored : Prop :=
  (∀ (s : State) (b c : BlockId) (m n : Nat) (v : Byte), MemoryInv s → m < 128 → n < 128 →
    (s.writeBlock b m v).readBlock c n = if c = b ∧ n = m then v else s.readBlock c n) ∧
  ∀ (s : State) (chain : List BlockId) (freed p : Nat) (data : List Byte),
    MemoryInv s → chain.Nodup → freed * 128 ≤ p → p + data.length ≤ (freed + chain.length) * 128 →
    let t := s.writeData chain freed p data
    (∀ n b, n < data.length → chain[(p + n) / 128 - freed]? = some b →
        t.readBlock b ((p + n) % 128) = data.getD n 0#8) ∧
      (∀ b m, m < 128 → (∀ n, n < data.length → chain[(p + n) / 128 - freed]? = some b → (p + n) % 128 ≠ m) →
        t.readBlock b m = s.readBlock b m) ∧
      t = { s with mem := t.mem }

/-- Section 4.3 (R60): when a LOADING print job becomes READY. -/
def Obligations.LoadingBecomesReady : Prop :=
  ∀ (j : Job) (r : DeviceRecord),
    (j.kind = .print → j.state = .loading →
      (j.complete = true ∨ (r.startThreshold ≠ 0 ∧
        (r.startThreshold * 128 ≤ j.received ∨ (j.received = j.creditLimit ∧ 0 < j.creditLimit)))) →
      j.testReady r = { j with state := .ready }) ∧
      (j.kind = .print → j.state = .loading → j.complete = false →
        (r.startThreshold = 0 ∨ (j.received < r.startThreshold * 128 ∧ (j.received ≠ j.creditLimit ∨ j.creditLimit = 0))) →
        j.testReady r = j) ∧
      (j.kind = .scan ∨ j.state ≠ .loading → j.testReady r = j)

/-- Sections 3.4, 4.4, 9.2 (R62, R50, R142): the table of JOB_CLOSE, and what refuses it before. The surplus blocks are
returned before the block of a final byte already handed (log entry 31); the SLOT byte 0xFF of an empty payload is log
entry 9. -/
def Obligations.JobCloseCases : Prop :=
  (∀ (s : State) (k : KioskId) (r : Request), s.takes k kindJobClose r = true → (s.kiosk k).replyRoom = true →
    (service r.channel ≠ servicePrint ∧ service r.channel ≠ serviceScan) ∨ r.payload.length ≠ 1 ∨
      3 ≤ byteAt r.payload 0 →
    exec (.jobClose k r) s = .next ((s.modKiosk k KioskPort.takeGood).reply k kindJobClose r .badRequest
      [r.payload.getD 0 0xFF#8, 0#8, 0#8, 0#8])) ∧
  ∀ (s : State) (k : KioskId) (r : Request) (slot : SlotId),
    s.takes k kindJobClose r = true → (s.kiosk k).replyRoom = true →
    service r.channel = servicePrint ∨ service r.channel = serviceScan → r.payload = [byte slot.val] →
    let G := s.modKiosk k KioskPort.takeGood
    let i := jobIx k slot
    (G.job i = none → exec (.jobClose k r) s = .next (G.reply k kindJobClose r .badState [byte slot.val, 0#8, 0#8, 0#8])) ∧
      ∀ j, G.job i = some j →
        (j.kind = .scan ∨ service r.channel ≠ servicePrint →
          exec (.jobClose k r) s = .next (G.reply k kindJobClose r .badState [byte slot.val, 0#8, 0#8, 0#8])) ∧
          (j.kind = .print → service r.channel = servicePrint → j.complete = true →
            exec (.jobClose k r) s = .next (G.reply k kindJobClose r .ok (byte slot.val :: be24 j.declaredLength))) ∧
          (j.kind = .print → service r.channel = servicePrint → j.complete = false → j.declaredLength ≠ 0 →
            exec (.jobClose k r) s = .next (G.reply k kindJobClose r .badState [byte slot.val, 0#8, 0#8, 0#8])) ∧
          (j.kind = .print → service r.channel = servicePrint → j.complete = false → j.declaredLength = 0 →
            exec (.jobClose k r) s = .next (
              let keep := (j.received + 127) / 128 - j.freedBlocks
              let job : Job := { j with
                declaredLength := j.received, complete := true, creditLimit := j.received,
                allocation := j.allocation.take keep }
              let T := (((G.reply k kindJobClose r .ok (byte slot.val :: be24 j.received)).setJob i
                (some job)).returnBlocks (j.allocation.drop keep))
              let U := (if j.sent = j.received then T.freeHead i else T).grantPass
              (U.modJob i fun x => x.testReady (G.device j.device).record).settle j.device))

/-- Sections 1.3, 1.4, 5.6, 9.2 (R9, R7, R85, R142): the table of JOB_ABORT, and what refuses it before; an ACTIVE scan
job's ending is held while a frame of its is on the line (PAUSED then becomes no: log entry 16). -/
def Obligations.JobAbortCases : Prop :=
  (∀ (s : State) (k : KioskId) (r : Request), s.takes k kindJobAbort r = true → (s.kiosk k).replyRoom = true →
    (service r.channel ≠ servicePrint ∧ service r.channel ≠ serviceScan) ∨ r.payload.length ≠ 1 ∨
      3 ≤ byteAt r.payload 0 →
    exec (.jobAbort k r) s = .next ((s.modKiosk k KioskPort.takeGood).reply k kindJobAbort r .badRequest [])) ∧
  ∀ (s : State) (k : KioskId) (r : Request) (slot : SlotId),
    s.takes k kindJobAbort r = true → (s.kiosk k).replyRoom = true →
    service r.channel = servicePrint ∨ service r.channel = serviceScan → r.payload = [byte slot.val] →
    let G := s.modKiosk k KioskPort.takeGood
    let i := jobIx k slot
    (G.job i = none → exec (.jobAbort k r) s = .next (G.reply k kindJobAbort r .badState [])) ∧
      ∀ j, G.job i = some j →
        ((service r.channel = servicePrint ∧ j.kind = .scan) ∨ (service r.channel = serviceScan ∧ j.kind = .print) ∨
            j.held ≠ none →
          exec (.jobAbort k r) s = .next (G.reply k kindJobAbort r .badState [])) ∧
          (service r.channel = servicePrint → j.kind = .print → j.held = none → j.state = .active →
            exec (.jobAbort k r) s = .next (G.reply k kindJobAbort r .ok [byte slot.val, 0#8])) ∧
          (service r.channel = serviceScan → j.kind = .scan → j.held = none → j.state = .active →
            exec (.jobAbort k r) s = .next (
              let A := G.reply k kindJobAbort r .ok [byte slot.val, 1#8]
              (if (s.kiosk k).line = .frame ∧ (s.kiosk k).source = .scan slot then
                (A.setDevice j.device ((A.device j.device).letScanGo .aborted)).setJob i
                  (some { j with held := some .aborted, paused := false })
              else A.endJob i .aborted).settle j.device)) ∧
          ((service r.channel = servicePrint ∧ j.kind = .print) ∨ (service r.channel = serviceScan ∧ j.kind = .scan) →
            j.held = none → j.state ≠ .active →
            exec (.jobAbort k r) s = .next
              ((G.reply k kindJobAbort r .ok [byte slot.val, 1#8]).endJob i .aborted))

/-- Sections 1.4, 9.2, 9.7 (R10, R142, R150): what refuses a JOB_QUERY, and that it reports the slot and changes no job.
What a FREE slot's three counts and bits PAUSED to ABORT_PENDING, a scan job's CREDIT_LIMIT and COMPLETE bit and a print
job's TRUNCATED and ABORT_PENDING bits show is free (log entry 8); that a FREE slot's other one-byte fields show 0xFF is
log entry 9. -/
def Obligations.JobQueryReports : Prop :=
  (∀ (s : State) (k : KioskId) (r : Request), s.takes k kindJobQuery r = true → (s.kiosk k).replyRoom = true →
    (service r.channel ≠ servicePrint ∧ service r.channel ≠ serviceScan) ∨ r.payload.length ≠ 1 ∨
      3 ≤ byteAt r.payload 0 →
    exec (.jobQuery k r) s = .next ((s.modKiosk k KioskPort.takeGood).reply k kindJobQuery r .badRequest [])) ∧
  ∀ (s : State) (k : KioskId) (r : Request) (slot : SlotId),
    s.takes k kindJobQuery r = true → (s.kiosk k).replyRoom = true →
    service r.channel = servicePrint ∨ service r.channel = serviceScan → r.payload = [byte slot.val] →
    let G := s.modKiosk k KioskPort.takeGood
    let i := jobIx k slot
    (G.job i = none → ∃ (open9 : List Byte) (open5 : Nat), open9.length = 9 ∧ open5 < 32 ∧
      exec (.jobQuery k r) s = .next ((G.reply k kindJobQuery r .ok
        ([byte slot.val, 0#8, 0xFF#8, 0xFF#8, 0xFF#8, 0xFF#8,
            byte ((if G.jobEndWaits k slot then 1 else 0) + open5 * 2)] ++ open9)).advanceFree 10)) ∧
      ∀ j, G.job i = some j →
        let bit := fun (b : Bool) (v : Nat) => if b then v else 0
        let state := match j.state with | .loading => 1#8 | .ready => 2#8 | .active => 3#8
        (j.kind = .print → ∃ truncated abort : Bool,
          exec (.jobQuery k r) s = .next ((G.reply k kindJobQuery r .ok
            ([byte slot.val, state, 0#8, byte j.device.val, j.priority, byte ((G.device j.device).queue.idxOf i),
                byte (bit j.paused 2 + bit j.complete 4 + bit truncated 8 + bit j.lineErrors 16 + bit abort 32)] ++
              be24 j.received ++ be24 j.sent ++ be24 j.creditLimit)).advanceFree 4)) ∧
          (j.kind = .scan → ∃ (complete : Bool) (open3 : List Byte), open3.length = 3 ∧
            exec (.jobQuery k r) s = .next ((G.reply k kindJobQuery r .ok
              ([byte slot.val, state, 1#8, byte j.device.val, j.priority, byte ((G.device j.device).queue.idxOf i),
                  byte (bit j.paused 2 + bit complete 4 + bit j.truncated 8 + bit j.lineErrors 16 +
                    bit j.held.isSome 32)] ++ be24 j.received ++ be24 j.sent ++ open3)).advanceFree 4))

/-- Sections 3.2, 3.3, 3.4, 8.2 (R40, R42, R44-R48, R127): which record qualifies for a block, the rotation after
GRANT_POINTER, one grant with its CREDIT (handed before the tight-spool condition is evaluated: log entry 20), and a
pass as a row of grants; the tight-spool condition between its two levels, and the flag of each edge. -/
def Obligations.GrantsAndTightSpool : Prop :=
  (∀ (s : State) (i : JobId) (j : Job) (b : BlockId) (rest : List BlockId), s.free = b :: rest → s.job i = some j →
      let top := (j.freedBlocks + j.allocation.length + 1) * 128
      let limit := if j.declaredLength = 0 then min 16777215 top else min j.declaredLength top
      let t := s.grantTo i
      t.job i = some { j with allocation := j.allocation ++ [b], creditLimit := limit } ∧
        (∀ n, n ≠ i → t.job n = s.job n) ∧ t.free = rest ∧ t.grantPointer = i ∧ t.mem = s.mem ∧
        t.devices = s.devices ∧
        let T := (s.setFree rest).setJob i (some { j with allocation := j.allocation ++ [b], creditLimit := limit })
        t = ((if j.creditLimit < limit then T.handCredit (jobKiosk i) j.channel (jobSlot i) limit else T).setGrantPointer
          i).evalTight) ∧
    (∀ (s : State) (k : KioskId) (ch : Byte) (slot : SlotId) (limit : Nat),
      let p := s.kiosk k
      ((∀ c l, ControlEntry.credit c slot l ∉ p.control) →
          s.handCredit k ch slot limit = s.setKiosk k { p with control := p.control ++ [.credit ch slot limit] }) ∧
        ∀ a c l b, p.control = a ++ .credit c slot l :: b → (∀ c' l', ControlEntry.credit c' slot l' ∉ a) →
          s.handCredit k ch slot limit = s.setKiosk k { p with control := a ++ .credit c slot limit :: b }) ∧
    (∀ (s : State) (i : JobId), s.qualifies i = true ↔ ∃ j, s.job i = some j ∧ j.kind = .print ∧ j.complete = false ∧
      j.allocation.length < (if s.tight then 2 else 16) ∧
      ((List.finRange 3).map fun t =>
        match s.job (jobIx (jobKiosk i) t) with | some x => x.allocation.length | none => 0).sum <
        (s.kiosk (jobKiosk i)).quota ∧
      j.freedBlocks + j.allocation.length <
        (if j.declaredLength = 0 then 131072 else (j.declaredLength + 127) / 128)) ∧
    (∀ s : State, (s.nextQualifying = none ↔ ∀ i, s.qualifies i = false) ∧
      ∀ i, s.nextQualifying = some i ↔ ∃ n, 1 ≤ n ∧ n ≤ 48 ∧ i.val = (s.grantPointer.val + n) % 48 ∧
        s.qualifies i = true ∧
        ∀ (m : Nat) (x : JobId), 1 ≤ m → m < n → x.val = (s.grantPointer.val + m) % 48 → s.qualifies x = false) ∧
    (∀ s : State, (s.nextQualifying = none ∨ s.free = [] → s.grantPass = s) ∧
      (∀ i, s.nextQualifying = some i → s.free ≠ [] → s.grantPass = (s.grantTo i).grantPass) ∧
      (s.grantPass.nextQualifying = none ∨ s.grantPass.free = [])) ∧
  ∀ s : State,
    let C := max s.spoolRecord.tightClear (s.spoolRecord.tightSet + 1)
    (s.tight = false → s.free.length < s.spoolRecord.tightSet * 64 →
        s.evalTight = if s.spoolRecord.onEntry then (s.setTight true).raise .spoolEvent else s.setTight true) ∧
      (s.tight = false → s.spoolRecord.tightSet * 64 ≤ s.free.length → s.evalTight = s) ∧
      (s.tight = true → C * 64 ≤ s.free.length →
        s.evalTight = if s.spoolRecord.onExit then (s.setTight false).raise .spoolEvent else s.setTight false) ∧
      (s.tight = true → s.free.length < C * 64 → s.evalTight = s)

/-- Sections 1.3, 3.6, 4.6, 5.2, 5.6, 8.2 (R5-R8, R53, R70, R71, R76, R85, R128): a job's ending: the record FREE, its
place in the queue closed up, the chain's blocks at the tail of the free list one by one; the JOB_END at the tail of the
control queue in place of a CREDIT of its slot, but for OWNER_LOST; and then a grant pass (log entry 11), which with no
other job live does nothing. What the ending does on the device side, and when it is held for a frame on the line
(PAUSED then becomes no and FAULT_LIMIT stops: log entry 16). -/
def Obligations.JobEndings : Prop :=
  (∀ (s : State) (i : JobId) (j : Job) (reason : EndReason), s.job i = some j →
      (s.endJob i reason).job i = none ∧
        ((s.endJob i reason).device j.device).queue = (s.device j.device).queue.filter fun x => x != i) ∧
    (∀ (s : State) (i : JobId) (j : Job) (reason : EndReason), s.job i = some j → (∀ n, n ≠ i → s.job n = none) →
      s.tight = false → s.spoolRecord.tightSet * 64 ≤ s.free.length →
      let p := s.device j.device
      let count := if j.kind = .print ∧ j.state = .active ∧ p.holding ≠ none then j.sent - 1 else j.sent
      let T := ((s.setDevice j.device (p.dropJob i j reason)).setJob i none).setFree (s.free ++ j.allocation)
      s.endJob i reason =
        if reason = .ownerLost then T
        else T.handJobEnd (jobKiosk i) j.channel (jobSlot i) reason count j.lineErrors) ∧
    (∀ (s : State) (i : JobId) (j : Job) (reason : EndReason), s.job i = some j →
      let p := s.device j.device
      let count := if j.kind = .print ∧ j.state = .active ∧ p.holding ≠ none then j.sent - 1 else j.sent
      let T := ((s.setDevice j.device (p.dropJob i j reason)).setJob i none).returnBlocks j.allocation
      s.endJob i reason =
        (if reason = .ownerLost then T
        else T.handJobEnd (jobKiosk i) j.channel (jobSlot i) reason count j.lineErrors).grantPass) ∧
    (∀ (s : State) (b : BlockId) (rest : List BlockId),
      s.returnBlocks [] = s ∧ s.returnBlocks (b :: rest) = ((s.setFree (s.free ++ [b])).evalTight).returnBlocks rest) ∧
    (∀ (s : State) (k : KioskId) (ch : Byte) (slot : SlotId) (reason : EndReason) (count : Nat) (le : Bool),
      s.handJobEnd k ch slot reason count le = s.setKiosk k { s.kiosk k with control :=
        ((s.kiosk k).control.filter fun e => match e with | .credit _ t _ => t != slot | _ => true) ++
          [.jobEnd ch slot reason count le] }) ∧
    (∀ (p : DevicePort) (i : JobId) (j : Job) (reason : EndReason),
      let q := p.queue.filter fun x => x != i
      (j.state ≠ .active → p.dropJob i j reason = { p with queue := q }) ∧
        (j.state = .active → j.kind = .print → p.dropJob i j reason = { p with
          queue := q, holding := none, underrun := .stopped, faultLimit := .stopped,
          brk := if p.record.resetBreak = true ∧ reason ≠ .done ∧ reason ≠ .failedDeviceReset then .owed else p.brk }) ∧
        (j.state = .active → j.kind = .scan →
          p.dropJob i j reason = DevicePort.letScanGo reason { p with queue := q }) ∧
        p.letScanGo reason = { p with
          holding := none, faultLimit := .stopped,
          scan := { phase := .none, commandLeft := 0, firstByte := .stopped, gap := .stopped, watermark := false,
                    flush := p.scan.flush ||
                      (decide (p.scan.phase = .reception) && decide (reason ≠ .failedDeviceReset)) } }) ∧
    ∀ (s : State) (i : JobId) (reason : EndReason),
      (s.job i = none → s.decideEnd i reason = s) ∧
        ∀ j, s.job i = some j →
          let k := s.kiosk (jobKiosk i)
          let onLine := j.kind = .scan ∧ j.state = .active ∧ k.line = .frame ∧ k.source = .scan (jobSlot i)
          (j.held ≠ none → s.decideEnd i reason = s) ∧
            (j.held = none → onLine → s.decideEnd i reason =
              (s.setDevice j.device ((s.device j.device).letScanGo reason)).setJob i
                (some { j with held := some reason, paused := false })) ∧
            (j.held = none → ¬ onLine → s.decideEnd i reason = s.endJob i reason)

/-! ### Management -/

/-- Section 11.1 (R163): UNLOCK and LOCK. -/
def Obligations.UnlockAndLock : Prop :=
  (∀ (s : State) (k : KioskId) (r : Request), s.takes k kindUnlock r = true → (s.kiosk k).replyRoom = true →
      let G := s.modKiosk k KioskPort.takeGood
      (service r.channel ≠ serviceManage ∨ r.payload.length ≠ 8 →
          exec (.unlock k r) s = .next (G.reply k kindUnlock r .badRequest [])) ∧
        (service r.channel = serviceManage → r.payload.length = 8 → r.payload = G.store.code →
          exec (.unlock k r) s =
            .next ((G.reply k kindUnlock r .ok []).modKiosk k fun p => { p with unlocked := true })) ∧
        (service r.channel = serviceManage → r.payload.length = 8 → r.payload ≠ G.store.code →
          exec (.unlock k r) s = .next (((G.reply k kindUnlock r .badCode []).lockPort k).penalize k .badCode))) ∧
    (∀ (s : State) (k : KioskId) (r : Request), s.takes k kindLock r = true → (s.kiosk k).replyRoom = true →
      service r.channel = serviceManage → (s.kiosk k).unlocked = true → r.payload = [] →
      exec (.lock k r) s = .next (((s.modKiosk k KioskPort.takeGood).reply k kindLock r .ok []).lockPort k)) ∧
    ∀ (s : State) (k : KioskId),
      (s.noticePort ≠ some k →
        s.lockPort k = s.setKiosk k { s.kiosk k with unlocked := false, cursor := none }) ∧
        (s.noticePort = some k →
          s.lockPort k = (s.setNotice none 0#13).setKiosk k
            { s.kiosk k with
              unlocked := false, cursor := none, control := (s.kiosk k).control.filter fun e => !e.isNotice })

/-- Sections 11.3, 9.7 (R165, R150): TABLE_READ and TABLE_READ_NEXT of every table, each table's code, entries and
record length, the record each index stands for, and the bytes of the JOB and CONTACT records. The bytes and bits to
which no rule gives a value are free (log entry 8): fields of an UNZONED CONTACT record, an absent LAST, COMPLETE of a
scan job, TRUNCATED and ABORT_PENDING of a print job. -/
def Obligations.TableReads : Prop :=
  (∀ (s : State) (k : KioskId) (r : Request) (tab : TableId) (i : Nat),
      s.takes k kindTableRead r = true → (s.kiosk k).replyRoom = true → service r.channel = serviceManage →
      (s.kiosk k).unlocked = true → i < 256 → r.payload = [byte tab.code, byte i] →
      let G := s.modKiosk k KioskPort.takeGood
      (i < tab.size → exec (.tableRead k r) s = .next (
          (((G.reply k kindTableRead r .ok ([byte tab.code, byte i] ++ G.record tab i)).modKiosk k fun p =>
            { p with cursor := some (tab, i + 1) }).advanceFree
              (if tab = .contact then 11 else if tab = .job then 1 else 0)))) ∧
        (tab.size ≤ i → exec (.tableRead k r) s = .next (G.reply k kindTableRead r .outOfRange []))) ∧
    (∀ (s : State) (k : KioskId) (r : Request) (c i : Byte),
      s.takes k kindTableRead r = true → (s.kiosk k).replyRoom = true → service r.channel = serviceManage →
      (s.kiosk k).unlocked = true → r.payload = [c, i] → 7 ≤ c.toNat →
      exec (.tableRead k r) s = .next ((s.modKiosk k KioskPort.takeGood).reply k kindTableRead r .badRequest [])) ∧
    (∀ (s : State) (k : KioskId) (r : Request),
      s.takes k kindTableReadNext r = true → (s.kiosk k).replyRoom = true → service r.channel = serviceManage →
      (s.kiosk k).unlocked = true → r.payload = [] →
      let G := s.modKiosk k KioskPort.takeGood
      ((s.kiosk k).cursor = none →
          exec (.tableReadNext k r) s = .next (G.reply k kindTableReadNext r .badState [])) ∧
        ∀ tab i, (s.kiosk k).cursor = some (tab, i) →
          (i < tab.size → exec (.tableReadNext k r) s = .next (
            (((G.reply k kindTableReadNext r .ok ([byte tab.code, byte i] ++ G.record tab i)).modKiosk k fun p =>
              { p with cursor := some (tab, i + 1) }).advanceFree
              (if tab = .contact then 11 else if tab = .job then 1 else 0)))) ∧
          (tab.size ≤ i → exec (.tableReadNext k r) s = .next (G.reply k kindTableReadNext r .outOfRange []))) ∧
    (∀ s : State,
      (∀ e, s.record .route (Fin.val e) = encodeRoute (s.route e)) ∧
        (∀ p, s.record .panel (Fin.val p) = encodePanel (s.panel p)) ∧
        (∀ z, s.record .zone (Fin.val z) = encodeZone (s.zone z)) ∧
        (∀ d, s.record .device (Fin.val d) = encodeDevice (s.device d).record) ∧
        (∀ k, s.record .kiosk (Fin.val k) = encodeKiosk (s.kiosk k)) ∧
        s.record .kiosk 16 = encodeSpool s.spoolRecord ∧
        (∀ i, ∃ drawn, s.record .job (Fin.val i) = encodeJob drawn (s.job i)) ∧
        ∀ c, ∃ open8, s.record .contact (Fin.val c) = encodeContact open8 (s.contact c)) ∧
    (∀ row ∈ ([(.route, 0, 32, 8), (.panel, 1, 16, 16), (.zone, 2, 64, 16), (.device, 3, 8, 16), (.kiosk, 4, 17, 4),
        (.job, 5, 48, 16), (.contact, 6, 160, 18)] : List (TableId × Nat × Nat × Nat)),
      row.1.code = row.2.1 ∧ row.1.size = row.2.2.1 ∧ row.1.recordSize = row.2.2.2) ∧
    (∀ drawn : Byte, encodeJob drawn none = List.replicate 16 0#8 ∧ ∀ j : Job,
      let bit := fun (b : Bool) (v : Nat) => if b then v else 0
      let state := match j.state with | .loading => 1 | .ready => 2 | .active => 3
      let rest := fun limit : Nat => [j.channel, byte j.device.val, j.priority] ++ be24 j.received ++ be24 j.sent ++
        be24 limit ++
        be24 (j.allocation.length * 4096 + (match j.allocation with | b :: _ => b.val | [] => 4095))
      (j.kind = .print → ∃ truncated abort : Bool, encodeJob drawn (some j) =
          byte (state + bit j.complete 8 + bit j.paused 16 + bit abort 32 + bit j.lineErrors 64 + bit truncated 128) ::
            rest j.creditLimit) ∧
        (j.kind = .scan → ∃ complete : Bool, encodeJob drawn (some j) =
          byte (state + 4 + bit complete 8 + bit j.paused 16 + bit j.held.isSome 32 + bit j.lineErrors 64 +
            bit j.truncated 128) :: rest j.maxBlocks)) ∧
    ∀ open8 : Nat → Byte,
      let bit := fun (b : Bool) (v : Nat) => if b then v else 0
      encodeContact open8 .free = List.replicate 18 0#8 ∧
        (∃ (visible owed : Bool) (o : Nat → Byte), encodeContact open8 .unzoned =
          [byte (2 + bit visible 4 + bit owed 8), o 0, o 1, 0#8, o 2, o 3, o 4, o 5, o 6, o 7, o 8, o 9, 0#8, 0#8, 0#8,
            0#8, 0#8, 0#8]) ∧
        ∀ b : Binding, ∃ o : List Byte, o.length = 4 ∧ (∀ x y, b.last = some (x, y) → o = be16 x ++ be16 y) ∧
          encodeContact open8 (.bound b) =
            [byte (1 + bit b.visible 4 + bit b.upOwed 8 + bit b.last.isSome 16), byte b.owner.val, byte b.zone.val,
                0#8] ++ be16 b.width ++ be16 b.height ++ o ++ be24 (b.x0 * 4096 + b.y0) ++ be24 (b.x1 * 4096 + b.y1)

/-- Sections 11.2, 11.3 (R164, R165): what refuses a TABLE_WRITE of any table, the spool record among them, before the
table's own checks; a TABLE_WRITE that names no writable table (log entry 23); each table's own checks and what storing
its record is; and TABLE_WRITE_NEXT, which writes at the cursor (log entry 24). The REPLY stands before the entries that
the store queues by log entry 17. -/
def Obligations.TableWriteChecks : Prop :=
  (∀ row ∈ ([(.route, Instr.tableWriteRoute), (.panel, Instr.tableWritePanel), (.zone, Instr.tableWriteZone),
        (.device, Instr.tableWriteDevice), (.kiosk, Instr.tableWriteKiosk)] :
        List (TableId × (KioskId → Byte → Byte → Byte → List Byte → Instr))),
      ∀ (s : State) (k : KioskId) (ch tag index : Byte) (record : List Byte),
        let r : Request := { channel := ch, tag := tag, payload := [byte row.1.code, index] ++ record }
        s.takes k kindTableWrite r = true → (s.kiosk k).replyRoom = true →
        let G := s.modKiosk k KioskPort.takeGood
        (service ch ≠ serviceManage →
            exec (row.2 k ch tag index record) s = .next (G.reply k kindTableWrite r .badRequest [])) ∧
          (service ch = serviceManage → (s.kiosk k).unlocked = false →
            exec (row.2 k ch tag index record) s = .next (G.reply k kindTableWrite r .locked [])) ∧
          (service ch = serviceManage → (s.kiosk k).unlocked = true → record.length ≠ row.1.recordSize →
            exec (row.2 k ch tag index record) s = .next (G.reply k kindTableWrite r .badRequest [])) ∧
          (service ch = serviceManage → (s.kiosk k).unlocked = true → record.length = row.1.recordSize →
            row.1.size ≤ index.toNat →
            exec (row.2 k ch tag index record) s = .next (G.reply k kindTableWrite r .outOfRange []))) ∧
    (∀ (s : State) (k : KioskId) (ch tag : Byte) (record : List Byte),
      let r : Request := { channel := ch, tag := tag, payload := [4#8, 16#8] ++ record }
      s.takes k kindTableWrite r = true → (s.kiosk k).replyRoom = true →
      let G := s.modKiosk k KioskPort.takeGood
      let answers := fun st : Status =>
        exec (.tableWriteSpool k ch tag record) s = .next (G.reply k kindTableWrite r st [])
      (service ch ≠ serviceManage → answers .badRequest) ∧
        (service ch = serviceManage → (s.kiosk k).unlocked = false → answers .locked) ∧
        (service ch = serviceManage → (s.kiosk k).unlocked = true → record.length ≠ 4 → answers .badRequest)) ∧
    (∀ (s : State) (k : KioskId) (r : Request),
      s.takes k kindTableWrite r = true → (s.kiosk k).replyRoom = true →
      r.payload.length < 2 ∨ 4 < byteAt r.payload 0 →
      let G := s.modKiosk k KioskPort.takeGood
      let answers := fun st : Status => exec (.tableWriteReadOnly k r) s = .next (G.reply k kindTableWrite r st [])
      (service r.channel ≠ serviceManage → answers .badRequest) ∧
        (service r.channel = serviceManage → (s.kiosk k).unlocked = false → answers .locked) ∧
        (service r.channel = serviceManage → (s.kiosk k).unlocked = true → answers .badRequest)) ∧
    (∀ (s : State) (k : KioskId) (r : Request),
      s.takes k kindTableWriteNext r = true → (s.kiosk k).replyRoom = true →
      let G := s.modKiosk k KioskPort.takeGood
      let answers := fun st : Status => exec (.tableWriteNext k r) s = .next (G.reply k kindTableWriteNext r st [])
      (service r.channel ≠ serviceManage → answers .badRequest) ∧
        (service r.channel = serviceManage → (s.kiosk k).unlocked = false → answers .locked)) ∧
    (∀ (s : State) (record : List Byte),
      (∀ tab i, tab = .job ∨ tab = .contact ∨ record.length ≠ tab.recordSize →
          s.checkWrite tab i record = .badRequest) ∧
        (∀ tab i, tab ≠ .job → tab ≠ .contact → record.length = tab.recordSize → tab.size ≤ i →
          s.checkWrite tab i record = .outOfRange) ∧
        (record.length = 8 → ∀ e : RouteId,
          s.checkWrite .route e.val record = if decodeRoute record = none then .badRequest else .ok) ∧
        (record.length = 16 → ∀ z : ZoneId,
          s.checkWrite .zone z.val record = if decodeZone record = none then .badRequest else .ok) ∧
        (record.length = 16 → ∀ p : PanelId,
          (decodePanel (s.panel p) record = none → s.checkWrite .panel p.val record = .badRequest) ∧
            ∀ x, decodePanel (s.panel p) record = some x →
              let clash := x.enabled = true ∧ ∃ q, q ≠ p ∧ (s.panel q).enabled = true ∧ (s.panel q).device = x.device ∧
                ((s.device x.device).record.format ≠ .multidrop ∨ (s.panel q).address = x.address)
              (clash → s.checkWrite .panel p.val record = .badRequest) ∧
                (¬ clash → s.checkWrite .panel p.val record = .ok)) ∧
        (record.length = 16 → ∀ d : DeviceId,
          let may := ((s.device d).service = .disabled ∨ (s.device d).service = .offline) ∧
            ∀ i j, i ∈ (s.device d).queue → s.job i = some j → j.held = none
          (¬ may → s.checkWrite .device d.val record = .badState) ∧
            (may → s.checkWrite .device d.val record = if decodeDevice record = none then .badRequest else .ok)) ∧
        (record.length = 4 → s.checkWrite .kiosk 16 record = .ok ∧ ∀ n : KioskId,
          s.checkWrite .kiosk n.val record = if decodeKiosk record = none then .badRequest else .ok)) ∧
    (∀ (s : State) (record : List Byte),
      (∀ (e : RouteId) x, decodeRoute record = some x → s.storeRecord .route e.val record = s.setRoute e x) ∧
        (∀ (p : PanelId) x, decodePanel (s.panel p) record = some x → s.storeRecord .panel p.val record =
          ((s.releasePanel p).setPanel p x).modDevice (s.panel p).device (DevicePort.removeFromRound p)) ∧
        (∀ (z : ZoneId) x, decodeZone record = some x → s.storeRecord .zone z.val record = s.setZone z x) ∧
        (∀ (d : DeviceId) x, decodeDevice record = some x → s.storeRecord .device d.val record = s.storeDevice d x) ∧
        (∀ (n : KioskId) c q, decodeKiosk record = some (c, q) → s.storeRecord .kiosk n.val record =
          (s.setKiosk n { s.kiosk n with recordRate := c, quota := q }).grantPass) ∧
        s.storeRecord .kiosk 16 record = ((s.setSpoolRecord (decodeSpool record)).evalTight).grantPass) ∧
    ∀ (s : State) (k : KioskId) (r : Request),
      s.takes k kindTableWriteNext r = true → (s.kiosk k).replyRoom = true → service r.channel = serviceManage →
      (s.kiosk k).unlocked = true →
      let G := s.modKiosk k KioskPort.takeGood
      ((s.kiosk k).cursor = none →
          exec (.tableWriteNext k r) s = .next (G.reply k kindTableWriteNext r .badState [])) ∧
        ∀ tab i, (s.kiosk k).cursor = some (tab, i) →
          (tab = .job ∨ tab = .contact ∨ r.payload.length ≠ tab.recordSize →
            exec (.tableWriteNext k r) s = .next (G.reply k kindTableWriteNext r .badRequest [])) ∧
          (tab ≠ .job → tab ≠ .contact → r.payload.length = tab.recordSize → tab.size ≤ i →
            exec (.tableWriteNext k r) s = .next (G.reply k kindTableWriteNext r .outOfRange [])) ∧
          (∀ st, st ≠ .ok → G.checkWrite tab i r.payload = st →
            exec (.tableWriteNext k r) s = .next (G.reply k kindTableWriteNext r st [])) ∧
          (G.checkWrite tab i r.payload = .ok →
            exec (.tableWriteNext k r) s = .next (
              ((G.reply k kindTableWriteNext r .ok [byte tab.code, byte i]).modKiosk k fun p =>
                { p with cursor := some (tab, i + 1) }).storeRecord tab i r.payload))

/-- Sections 2.3, 7.3 (R29, R110): a TABLE_WRITE of a route or a zone entry stores the entry and nothing else; the
fields of each, clamped, and what refuses it. -/
def Obligations.RouteAndZoneWrites : Prop :=
  (∀ (s : State) (k : KioskId) (ch tag : Byte) (e : RouteId) (record : List Byte),
      let r : Request := { channel := ch, tag := tag, payload := [0#8, byte e.val] ++ record }
      s.takes k kindTableWrite r = true → (s.kiosk k).replyRoom = true → service ch = serviceManage →
      (s.kiosk k).unlocked = true → record.length = 8 →
      let G := s.modKiosk k KioskPort.takeGood
      (decodeRoute record = none → exec (.tableWriteRoute k ch tag (byte e.val) record) s =
          .next (G.reply k kindTableWrite r .badRequest [])) ∧
        ∀ x, decodeRoute record = some x → exec (.tableWriteRoute k ch tag (byte e.val) record) s = .next (
          ((G.reply k kindTableWrite r .ok [0#8, byte e.val]).modKiosk k fun p =>
            { p with cursor := some (.route, e.val + 1) }).setRoute e x)) ∧
    (∀ (s : State) (k : KioskId) (ch tag : Byte) (z : ZoneId) (record : List Byte),
      let r : Request := { channel := ch, tag := tag, payload := [2#8, byte z.val] ++ record }
      s.takes k kindTableWrite r = true → (s.kiosk k).replyRoom = true → service ch = serviceManage →
      (s.kiosk k).unlocked = true → record.length = 16 →
      let G := s.modKiosk k KioskPort.takeGood
      (decodeZone record = none → exec (.tableWriteZone k ch tag (byte z.val) record) s =
          .next (G.reply k kindTableWrite r .badRequest [])) ∧
        ∀ x, decodeZone record = some x → exec (.tableWriteZone k ch tag (byte z.val) record) s = .next (
          ((G.reply k kindTableWrite r .ok [2#8, byte z.val]).modKiosk k fun p =>
            { p with cursor := some (.zone, z.val + 1) }).setZone z x)) ∧
    (∀ r : List Byte, (decodeRoute r = none ↔ 1 < byteAt r 5 / 16 ∨ 7 < byteAt r 5 % 16) ∧
      ∀ x, decodeRoute r = some x →
        x.enabled = (byteAt r 0).testBit 0 ∧ x.matchValue.toNat = byteAt r 1 ∧ x.mask.toNat = byteAt r 2 ∧
          x.ports.toNat = word16 r 3 ∧ (x.action = .accept ↔ byteAt r 5 / 16 = 1) ∧ x.device.val = byteAt r 5 % 16 ∧
          x.hits = 0) ∧
    ∀ r : List Byte,
      (decodeZone r = none ↔ 15 < byteAt r 1 ∨ 15 < byteAt r 2 ∨ min (word16 r 8) 4095 < min (word16 r 4) 4095 ∨
        min (word16 r 10) 4095 < min (word16 r 6) 4095) ∧
      ∀ x, decodeZone r = some x →
        x.enabled = (byteAt r 0).testBit 0 ∧ x.panel.val = byteAt r 1 ∧ x.kiosk.val = byteAt r 2 ∧
          x.x0 = min (word16 r 4) 4095 ∧ x.y0 = min (word16 r 6) 4095 ∧ x.x1 = min (word16 r 8) 4095 ∧
          x.y1 = min (word16 r 10) 4095 ∧ x.width = max 1 (min (word16 r 12) 32767) ∧
          x.height = max 1 (min (word16 r 14) 32767)

/-- Sections 6.1, 6.8, 7.1 (R91, R102, R105): a TABLE_WRITE of a panel entry: what refuses it, its clamps, and its
effects, the round in progress among them. The REPLY stands before a NOTICE that the released contacts cause by log
entry 17. -/
def Obligations.PanelWrites : Prop :=
  (∀ (s : State) (k : KioskId) (ch tag : Byte) (p : PanelId) (record : List Byte),
      let r : Request := { channel := ch, tag := tag, payload := [1#8, byte p.val] ++ record }
      s.takes k kindTableWrite r = true → (s.kiosk k).replyRoom = true → service ch = serviceManage →
      (s.kiosk k).unlocked = true → record.length = 16 →
      let G := s.modKiosk k KioskPort.takeGood
      (decodePanel (G.panel p) record = none → exec (.tableWritePanel k ch tag (byte p.val) record) s =
          .next (G.reply k kindTableWrite r .badRequest [])) ∧
        ∀ x, decodePanel (G.panel p) record = some x →
          ((x.enabled = true ∧ ∃ q, q ≠ p ∧ (s.panel q).enabled = true ∧ (s.panel q).device = x.device ∧
              ((s.device x.device).record.format ≠ .multidrop ∨ (s.panel q).address = x.address)) →
            exec (.tableWritePanel k ch tag (byte p.val) record) s =
              .next (G.reply k kindTableWrite r .badRequest [])) ∧
          (¬ (x.enabled = true ∧ ∃ q, q ≠ p ∧ (s.panel q).enabled = true ∧ (s.panel q).device = x.device ∧
              ((s.device x.device).record.format ≠ .multidrop ∨ (s.panel q).address = x.address)) →
            exec (.tableWritePanel k ch tag (byte p.val) record) s = .next (
              let T := (G.reply k kindTableWrite r .ok [1#8, byte p.val]).modKiosk k fun q =>
                { q with cursor := some (.panel, p.val + 1) }
              ((T.releasePanel p).setPanel p x).modDevice (s.panel p).device (DevicePort.removeFromRound p)))) ∧
    (∀ (s : State) (p : PanelId),
      s.releasePanel p = ((List.finRange 10).map (contactIx p)).foldl State.releaseContact s) ∧
    (∀ (D : DevicePort) (p : PanelId),
      let left := D.poller.pending.filter fun x => x != p
      let settles := { D.poller with pending := left, current := some (p, PollStep.settling false) }
      (D.poller.current = some (p, .sending) →
          D.removeFromRound p = { D with holding := none, poller := settles }) ∧
        (((∃ n, D.poller.current = some (p, .awaiting n)) ∨ ∃ bytes, D.poller.current = some (p, .receiving bytes)) →
          D.removeFromRound p = { D with poller := settles }) ∧
        (((∃ b, D.poller.current = some (p, .settling b)) ∨ ∀ step, D.poller.current ≠ some (p, step)) →
          D.removeFromRound p = { D with poller := { D.poller with pending := left } })) ∧
    ∀ (old : Panel) (r : List Byte),
      (decodePanel old r = none ↔ 7 < byteAt r 1 ∨ byteAt r 2 = 0 ∨ byteAt r 2 = 255) ∧
      ∀ x, decodePanel old r = some x →
        x.enabled = (byteAt r 0).testBit 0 ∧ x.swap = (byteAt r 0).testBit 1 ∧ x.mirrorX = (byteAt r 0).testBit 2 ∧
          x.mirrorY = (byteAt r 0).testBit 3 ∧ x.moveSuppress = (byteAt r 0).testBit 4 ∧
          x.device.val = byteAt r 1 ∧ x.address.toNat = byteAt r 2 ∧
          x.offsetX = max (-2048) (min (signed16 r 4) 2047) ∧ x.offsetY = max (-2048) (min (signed16 r 6) 2047) ∧
          x.gainX = max 2048 (min (word16 r 8) 8191) ∧ x.gainY = max 2048 (min (word16 r 10) 8191) ∧
          x.presence = .unknown ∧ x.missRun = 0 ∧ x.clamps = 0 ∧ x.causes = old.causes

/-- Sections 10.10, 1.7, 1.6.2, 4.3, 6.9 (R162, R22, R17, R60, R103): a TABLE_WRITE of a device record: what refuses it;
when it is stored, the record's fields with their clamps, the service state, the jobs of another kind, the start
threshold, the qualified ATN level and the panels that name the port. The REPLY stands before the CREDITs and NOTICEs of
the write by log entry 17. -/
def Obligations.DeviceWrites : Prop :=
  (∀ (s : State) (k : KioskId) (ch tag : Byte) (d : DeviceId) (record : List Byte),
    let r : Request := { channel := ch, tag := tag, payload := [3#8, byte d.val] ++ record }
    s.takes k kindTableWrite r = true → (s.kiosk k).replyRoom = true → service ch = serviceManage →
    (s.kiosk k).unlocked = true → record.length = 16 →
    let G := s.modKiosk k KioskPort.takeGood
    ((¬ ((s.device d).service = .disabled ∨ (s.device d).service = .offline) ∨
          ∃ i j, i ∈ (s.device d).queue ∧ s.job i = some j ∧ j.held ≠ none) →
        exec (.tableWriteDevice k ch tag (byte d.val) record) s = .next (G.reply k kindTableWrite r .badState [])) ∧
      ((s.device d).service = .disabled ∨ (s.device d).service = .offline →
        (∀ i j, i ∈ (s.device d).queue → s.job i = some j → j.held = none) →
        (decodeDevice record = none →
          exec (.tableWriteDevice k ch tag (byte d.val) record) s =
            .next (G.reply k kindTableWrite r .badRequest [])) ∧
        ∀ x, decodeDevice record = some x → ∃ t,
          exec (.tableWriteDevice k ch tag (byte d.val) record) s = .next t ∧
            t = ((G.reply k kindTableWrite r .ok [3#8, byte d.val]).modKiosk k fun q =>
              { q with cursor := some (.device, d.val + 1) }).storeDevice d x ∧
            (t.device d).record = x ∧
            (t.device d).service = (if x.cls = .unused then .disabled else .offline) ∧
            (∀ p, (s.panel p).device = d → (t.panel p).presence = .unknown ∧ (t.panel p).missRun = 0) ∧
            ∀ (i : JobId) (j : Job), x.cls ≠ (s.device d).record.cls → i ∈ (s.device d).queue → s.job i = some j →
              ¬ ((x.cls = .printer ∧ j.kind = .print) ∨ (x.cls = .scanner ∧ j.kind = .scan)) → t.job i = none)) ∧
    (∀ (s : State) (d : DeviceId) (x : DeviceRecord),
      let D := s.device d
      let T := s.setDevice d
        { D with record := x, holding := none, shift := none, brk := .none, lineHeld := false }
      let U := if x.cls = D.record.cls then T else T.failMismatched x.cls D.queue
      let V := U.setDevice d (DevicePort.restartAtn
        { U.device d with service := if x.cls = .unused then .disabled else .offline })
      s.storeDevice d x = (V.testQueue x (V.device d).queue).restartPanels
        ((List.finRange 16).filter fun p => decide ((s.panel p).device = d))) ∧
    (∀ (s : State) (c : DeviceClass) (x : DeviceRecord) (i : JobId) (q : List JobId),
      s.failMismatched c [] = s ∧
        s.failMismatched c (i :: q) = (match s.job i with
          | some j =>
            if (c = .printer ∧ j.kind = .print) ∨ (c = .scanner ∧ j.kind = .scan) then s
            else s.endJob i .failedNoDevice
          | none => s : State).failMismatched c q ∧
        s.testQueue x [] = s ∧
        s.testQueue x (i :: q) =
          (match s.job i with | some j => s.setJob i (some (j.testReady x)) | none => s : State).testQueue x q) ∧
    (∀ (s : State) (p : PanelId) (ps : List PanelId),
      s.restartPanels [] = s ∧
        s.restartPanels (p :: ps) =
          let T := s.releasePanel p
          (T.setPanel p { T.panel p with presence := .unknown, missRun := 0 }).restartPanels ps) ∧
    (∀ p : DevicePort,
      let active := p.atnPin != p.record.atnLow
      (active = false → p.restartAtn = { p with atn := false, blanking := .stopped }) ∧
        (active = true → p.record.atnBlanking = 0 → p.restartAtn = { p with atn := true, blanking := .stopped }) ∧
        (active = true → p.record.atnBlanking ≠ 0 → p.restartAtn = { p with
          atn := false,
          blanking := .running
            (if p.record.atnBlanking = 1 then 2 else if p.record.atnBlanking = 2 then 8 else 32) })) ∧
    ∀ r : List Byte,
      (decodeDevice r = none ↔ 3 < byteAt r 0 ∨ 3 < byteAt r 1 ∨ 2 < byteAt r 5 ∨ (byteAt r 1 = 3 ∧ byteAt r 0 ≠ 3)) ∧
      ∀ x, decodeDevice r = some x →
        let oneUp := fun n : Nat => if n = 0 then 1 else n
        byteAt r 0 = (match x.cls with | .unused => 0 | .printer => 1 | .scanner => 2 | .touch => 3) ∧
          byteAt r 1 = (match x.format with | .f8N1 => 0 | .f8E1 => 1 | .f8O1 => 2 | .multidrop => 3) ∧
          byteAt r 5 = (match x.holdMode with | .auto => 0 | .forceActive => 1 | .forceInactive => 2) ∧
          x.prescale8 = (word16 r 2).testBit 15 ∧ x.divider = word16 r 2 % 4096 ∧
          x.rdyLow = (byteAt r 4).testBit 0 ∧ x.atnLow = (byteAt r 4).testBit 1 ∧ x.holdLow = (byteAt r 4).testBit 2 ∧
          x.wakeOnActivity = (byteAt r 4).testBit 3 ∧ x.resetBreak = (byteAt r 4).testBit 4 ∧
          x.atnBlanking.val = byteAt r 4 / 32 % 4 ∧ x.startThreshold = byteAt r 6 ∧
          x.underrunTimeout = oneUp (byteAt r 7) ∧ x.firstByteTimeout = oneUp (byteAt r 8) ∧
          x.endGap = (if byteAt r 9 < 2 then 2 else byteAt r 9) ∧ x.faultLimit = oneUp (byteAt r 10) ∧
          x.holdSet = oneUp (byteAt r 11) ∧ x.holdClear = oneUp (byteAt r 12) ∧
          x.pollInterval = oneUp (byteAt r 13) ∧ x.replyTimeout = oneUp (byteAt r 14)

/-- Sections 3.2, 3.3, 9.1 (R40, R41, R138): a TABLE_WRITE of a kiosk record or of the spool record, the latter as its
own row or as KIOSK index 16. The REPLY stands before the CREDITs and NOTICEs of the write by log entry 17. -/
def Obligations.KioskAndSpoolWrites : Prop :=
  (∀ (s : State) (k n : KioskId) (ch tag rate b q1 q0 : Byte),
      let r : Request := { channel := ch, tag := tag, payload := [4#8, byte n.val, rate, b, q1, q0] }
      s.takes k kindTableWrite r = true → (s.kiosk k).replyRoom = true → service ch = serviceManage →
      (s.kiosk k).unlocked = true →
      let G := s.modKiosk k KioskPort.takeGood
      (4 ≤ rate.toNat → exec (.tableWriteKiosk k ch tag (byte n.val) [rate, b, q1, q0]) s =
          .next (G.reply k kindTableWrite r .badRequest [])) ∧
        ∀ c : Fin 4, rate.toNat = c.val → exec (.tableWriteKiosk k ch tag (byte n.val) [rate, b, q1, q0]) s = .next (
          (((G.reply k kindTableWrite r .ok [4#8, byte n.val]).modKiosk k fun p =>
            { p with cursor := some (.kiosk, n.val + 1) }).modKiosk n fun p =>
              { p with recordRate := c, quota := min (q1.toNat * 256 + q0.toNat) 2048 }).grantPass)) ∧
    ∀ (s : State) (k : KioskId) (ch tag a b f z : Byte),
      let r : Request := { channel := ch, tag := tag, payload := [4#8, 16#8, a, b, f, z] }
      s.takes k kindTableWrite r = true → (s.kiosk k).replyRoom = true → service ch = serviceManage →
      (s.kiosk k).unlocked = true →
      let G := s.modKiosk k KioskPort.takeGood
      let T := (G.reply k kindTableWrite r .ok [4#8, 16#8]).modKiosk k fun p => { p with cursor := some (.kiosk, 17) }
      let stored := (T.setSpoolRecord { tightSet := min a.toNat 31, tightClear := min b.toNat 31,
                                        onEntry := f.toNat.testBit 0,
                                        onExit := f.toNat.testBit 1 }).evalTight.grantPass
      exec (.tableWriteSpool k ch tag [a, b, f, z]) s = .next stored ∧
        exec (.tableWriteKiosk k ch tag 16#8 [a, b, f, z]) s = .next stored

/-- Sections 11.4, 9.7, 6.1 (R166, R150, R90): the three status requests and every byte of their reports; a cause set
that a report carries is emptied by it. The panels stand in ascending index (log entry 32), the return target, PHASE and
STEP have the codes of log entry 10, and STEP without CURRENT is free (log entry 8). -/
def Obligations.StatusReports : Prop :=
  (∀ (s : State) (k : KioskId) (r : Request),
      s.takes k kindStatusRead r = true → (s.kiosk k).replyRoom = true → service r.channel = serviceManage →
      (s.kiosk k).unlocked = true → r.payload = [] →
      let G := s.modKiosk k KioskPort.takeGood
      exec (.statusRead k r) s = .next (G.reply k kindStatusRead r .ok
        (be16 G.free.length ++ (match G.free with | b :: _ => be16 b.val | [] => [0xFF#8, 0xFF#8]) ++
          [if G.tight then 1#8 else 0#8] ++ be16 G.flags.toNat ++ be16 G.noticeMask.toNat ++
          [match G.noticePort with | some n => byte n.val | none => 0xFF#8,
            if G.store.writing ≠ none then 2#8 else if G.store.contents = none then 1#8 else 0#8,
            byte G.store.rate.val]))) ∧
    (∀ (s : State) (k n : KioskId) (r : Request),
      s.takes k kindPortStatus r = true → (s.kiosk k).replyRoom = true → service r.channel = serviceManage →
      (s.kiosk k).unlocked = true → r.payload = [byte n.val] →
      let G := s.modKiosk k KioskPort.takeGood
      exec (.portStatus k r) s = .next ((G.reply k kindPortStatus r .ok (G.portFields n)).modKiosk n fun p =>
        { p with causes := 0#8 })) ∧
    (∀ (s : State) (k : KioskId) (r : Request) (n : Byte),
      s.takes k kindPortStatus r = true → (s.kiosk k).replyRoom = true → service r.channel = serviceManage →
      (s.kiosk k).unlocked = true → r.payload = [n] → 16 ≤ n.toNat →
      exec (.portStatus k r) s = .next ((s.modKiosk k KioskPort.takeGood).reply k kindPortStatus r .outOfRange [])) ∧
    (∀ (s : State) (k : KioskId) (r : Request) (n : Byte),
      s.takes k kindDeviceStatus r = true → (s.kiosk k).replyRoom = true → service r.channel = serviceManage →
      (s.kiosk k).unlocked = true → r.payload = [n] →
      let G := s.modKiosk k KioskPort.takeGood
      (8 ≤ n.toNat → exec (.deviceStatus k r) s = .next (G.reply k kindDeviceStatus r .outOfRange [])) ∧
        ∀ d : DeviceId, n.toNat = d.val → ∃ t, exec (.deviceStatus k r) s = .next t ∧
          t.kiosks = (G.reply k kindDeviceStatus r .ok (G.deviceFields d)).kiosks ∧
          (∀ e, t.device e = if e = d then { s.device d with causes := 0#4 } else s.device e) ∧
          (∀ p, t.panel p = if (s.panel p).device = d then { s.panel p with causes := 0#2 } else s.panel p) ∧
          t.jobs = s.jobs ∧ t.flags = s.flags ∧ t.free = s.free ∧ t.mem = s.mem) ∧
    (∀ (s : State) (n : KioskId),
      let p := s.kiosk n
      let bit := fun (b : Bool) (v : Nat) => if b then v else 0
      s.portFields n =
        [byte n.val, (match p.link with | .normal => 0#8 | .degraded => 1#8 | .isolated => 2#8), byte p.score,
            byte p.cleanCount, byte (bit p.unlocked 1), byte p.rate.val, p.causes] ++
          be16 ((List.finRange 3).map fun t =>
            match s.job (jobIx n t) with | some x => x.allocation.length | none => 0).sum ++ be16 p.quota ++
          [byte p.control.length, byte (p.control.filter ControlEntry.isReply).length, byte p.touch.length,
            byte (bit p.replyHeld 1 + (match p.line with | .idle => 0 | .frame => 1 | .brk => 2 | .gap => 3) * 2),
            (match p.cursor with | some c => byte c.1.code | none => 0xFF#8),
            (match p.cursor with | some c => byte c.2 | none => 0xFF#8)]) ∧
    ∀ (s : State) (d : DeviceId),
      let p := s.device d
      let bit := fun (b : Bool) (v : Nat) => if b then v else 0
      let panels := (List.finRange 16).filter fun n => decide ((s.panel n).device = d)
      let held := match p.record.holdMode with
        | .forceActive => true
        | .forceInactive => false
        | .auto => p.scan.flush || (decide (p.scan.phase ≠ .none) && p.scan.watermark)
      ∃ step, step < 4 ∧
        (∀ c x, p.poller.current = some (c, x) →
          step = match x with | .sending => 0 | .awaiting _ => 1 | .receiving _ => 2 | .settling _ => 3) ∧
        s.deviceFields d =
          [byte d.val,
              (match p.record.cls with | .unused => 0#8 | .printer => 1#8 | .scanner => 2#8 | .touch => 3#8),
              (match p.service with
                | .disabled => 0#8 | .offline => 1#8 | .online => 2#8 | .draining => 3#8 | .fault _ => 4#8),
              (match p.service with
                | .fault .online => 2#8 | .fault .draining => 3#8 | .fault .offline => 1#8 | _ => 0xFF#8),
              byte (bit p.atn 1 + bit (p.rdyPin != p.record.rdyLow) 2 + bit (p.atnPin != p.record.atnLow) 4 + bit held 8),
              byte p.causes.toNat, (match s.activeJob d with | some i => byte i.val | none => 0xFF#8),
              byte p.queue.length] ++
            p.queue.flatMap (fun i => [byte i.val, (match s.job i with
              | none => 0#8
              | some j => match j.state with | .loading => 1#8 | .ready => 2#8 | .active => 3#8)]) ++
            [byte ((match p.scan.phase with | .none => 0 | .reception => 1 | .delivery => 2) +
                bit p.scan.watermark 4 + bit p.scan.flush 8),
              byte (bit p.poller.running 1 + step * 2 + bit p.poller.roundDue 8),
              (match p.poller.current with | some c => byte c.1.val | none => 0xFF#8), byte panels.length] ++
            panels.flatMap fun n => [byte n.val, byte (s.panel n).causes.toNat]

/-- Sections 8.2, 11.5, 11.6 (R129, R167, R168): FLAGS_CLEAR clears the flags it names whose bound condition does not
hold; NOTICE_SET with an empty set ends the notice port, and with another makes the requester the notice port; another
port that was it loses its waiting NOTICE. -/
def Obligations.FlagsAndNotices : Prop :=
  (∀ (s : State) (k : KioskId) (r : Request),
      s.takes k kindFlagsClear r = true → (s.kiosk k).replyRoom = true → service r.channel = serviceManage →
      (s.kiosk k).unlocked = true → r.payload.length = 2 →
      let G := s.modKiosk k KioskPort.takeGood
      ∃ t, exec (.flagsClear k r) s = .next t ∧ t = (G.reply k kindFlagsClear r .ok []).setFlags t.flags ∧
        ∀ f : Flag, f.isIn t.flags = true ↔ f.isIn s.flags = true ∧
          ((word16 r.payload 0).testBit f.bit = false ∨
            (f = .kioskIsolated ∧ ∃ n, (G.kiosk n).link = .isolated) ∨
            (f = .deviceFault ∧ ∃ d target, (s.device d).service = .fault target) ∨
            (f = .panelAbsent ∧ ∃ p, (s.panel p).enabled = true ∧ (s.panel p).presence = .absent))) ∧
    ∀ (s : State) (k : KioskId) (r : Request),
      s.takes k kindNoticeSet r = true → (s.kiosk k).replyRoom = true → service r.channel = serviceManage →
      (s.kiosk k).unlocked = true → r.payload.length = 2 →
      let T := (s.modKiosk k KioskPort.takeGood).reply k kindNoticeSet r .ok []
      let w := BitVec.ofNat 13 (word16 r.payload 0)
      (w = 0#13 → exec (.noticeSet k r) s = .next (T.dropNoticePort k)) ∧
        (w ≠ 0#13 → ∃ t, exec (.noticeSet k r) s = .next t ∧ t.noticePort = some k ∧ t.noticeMask = w ∧
          t.flags = s.flags ∧ (s.flags &&& w ≠ 0#13 → (t.kiosk k).control.any ControlEntry.isNotice = true) ∧
          (∀ n, n ≠ k → t.kiosk n = if s.noticePort = some n then { s.kiosk n with control :=
              ((s.kiosk n).control.filter fun e => match e with | .notice => false | _ => true) } else s.kiosk n) ∧
          ((∀ n, s.noticePort ≠ some n) → s.flags &&& w = 0#13 → t = T.setNotice (some k) w))

/-- Sections 11.7, 11.8 (R169, R171): STORE_WRITE, its completion, and the store read at start-up. A BLANK store
stands for the code of eight 0x00 bytes and rate code 2. That the flag is set before the REPLY joins is log entry 33;
that a completion without its cause changes nothing is log entry 2. -/
def Obligations.SettingsStore : Prop :=
  (∀ (s : State) (k : KioskId) (r : Request),
      s.takes k kindStoreWrite r = true → (s.kiosk k).replyRoom = true → service r.channel = serviceManage →
      (s.kiosk k).unlocked = true → r.payload.length = 9 →
      let G := s.modKiosk k KioskPort.takeGood
      (4 ≤ byteAt r.payload 8 → exec (.storeWrite k r) s = .next (G.reply k kindStoreWrite r .badRequest [])) ∧
        (byteAt r.payload 8 < 4 → s.store.writing ≠ none →
          exec (.storeWrite k r) s = .next (G.reply k kindStoreWrite r .busy [])) ∧
        ∀ c : Fin 4, byteAt r.payload 8 = c.val → s.store.writing = none →
          exec (.storeWrite k r) s = .next ((G.setStore { s.store with
            writing := some { code := r.payload.take 8, rate := c, port := k, channel := r.channel, tag := r.tag } }).modKiosk
              k fun p => { p with replyHeld := true })) ∧
    (∀ s : State, s.store.writing = none → exec .storeWriteComplete s = .next s) ∧
    (∀ (s : State) (w : StoreWrite), s.store.writing = some w → exec .storeWriteComplete s = .next (
      let T := (s.setStore
        { contents := some (w.code, w.rate), writing := none, code := w.code, rate := w.rate }).raise .storeDone
      if (s.kiosk w.port).replyHeld then T.modKiosk w.port fun p =>
        { p with
          control := p.control ++ [.reply w.channel w.tag kindStoreWrite .ok [] .nothing], replyHeld := false }
      else T)) ∧
    (∀ s : State, s.starting = false → exec .storeReadComplete s = .next s) ∧
    ∀ s : State, s.starting = true → ∃ t, exec .storeReadComplete s = .next t ∧
      (∀ k, t.kiosk k = { s.kiosk k with
        rate := (match s.store.contents with | some c => c.2 | none => 2),
        recordRate := (match s.store.contents with | some c => c.2 | none => 2) }) ∧
      t = { s with
        kiosks := t.kiosks, starting := false,
        store := { s.store with
          code := (match s.store.contents with
            | some c => c.1 | none => [0#8, 0#8, 0#8, 0#8, 0#8, 0#8, 0#8, 0#8])
          rate := (match s.store.contents with | some c => c.2 | none => 2) } }

/-- Section 11.8 (R171): power-on reset: every block at its reset values and the store read started; a store write in
flight leaves the store BLANK. The model's choice is what is kept besides (log entries 6, 7, 8), the code and the rates
in effect before the store is read (log entry 5), and that an active ATN pin starts no blanking period (log entry 21).
-/
def Obligations.PowerOnReset : Prop :=
  ∀ s : State, ∃ t, exec .powerOnReset s = .next t ∧
    (∀ d, t.device d = { State.reset.device d with atnPin := (s.device d).atnPin, rdyPin := (s.device d).rdyPin }) ∧
    t = { State.reset with
      devices := t.devices, mem := s.mem, pending := s.pending, freeIndex := s.freeIndex,
      store := { State.reset.store with contents := if s.store.writing = none then s.store.contents else none } }

/-- Sections 9.4, 11.8 (R148, R170): SWITCH_RESET and a port's PORT_RESET of itself wait for their REPLY to be sent; a
PORT_RESET of another port takes effect at once, behind its REPLY (the order of the two is log entry 17). A SWITCH_RESET
waits while its REPLY waits in a control queue or is on a line. -/
def Obligations.ResetRequests : Prop :=
  (∀ s : State, s.switchResetWaits = true ↔ ∃ k : KioskId, (s.kiosk k).afterFrame = .switchReset ∨
      ∃ ch tag kind st f, ControlEntry.reply ch tag kind st f .switchReset ∈ (s.kiosk k).control) ∧
  (∀ (s : State) (k : KioskId) (r : Request),
      s.takes k kindSwitchReset r = true → (s.kiosk k).replyRoom = true → service r.channel = serviceManage →
      (s.kiosk k).unlocked = true → r.payload = [] →
      let G := s.modKiosk k KioskPort.takeGood
      (G.switchResetWaits = true → exec (.switchReset k r) s = .next (G.reply k kindSwitchReset r .busy [])) ∧
        (G.switchResetWaits = false → exec (.switchReset k r) s = .next (G.modKiosk k fun p =>
          { p with control := p.control ++ [.reply r.channel r.tag kindSwitchReset .ok [] .switchReset] }))) ∧
    ∀ (s : State) (k : KioskId) (r : Request) (n : Byte),
      s.takes k kindPortReset r = true → (s.kiosk k).replyRoom = true → service r.channel = serviceManage →
      (s.kiosk k).unlocked = true → r.payload = [n] →
      let G := s.modKiosk k KioskPort.takeGood
      (16 ≤ n.toNat → exec (.portReset k r) s = .next (G.reply k kindPortReset r .outOfRange [])) ∧
        (n.toNat = k.val → exec (.portReset k r) s = .next (G.modKiosk k fun p =>
          { p with control := p.control ++ [.reply r.channel r.tag kindPortReset .ok [] .portReset] })) ∧
        ∀ m : KioskId, m ≠ k → n.toNat = m.val → ∃ t, exec (.portReset k r) s = .next t ∧
          t = (G.reply k kindPortReset r .ok []).resetPort m ∧
          t.kiosk m = { s.kiosk m with
            link := .normal, score := 0, cleanCount := 0, cleanTimer := .stopped, rate := (s.kiosk m).recordRate,
            unlocked := false, cursor := none, causes := 0#8, echoPending := false, gathered := RxFrame.empty,
            control := [], touch := [], replyHeld := false, line := .idle, source := .none, scanLast := 2, onLine := [],
            afterFrame := .nothing } ∧
          (∀ slot, t.job (jobIx m slot) = none) ∧ t.noticePort ≠ some m

/-- Sections 9.4, 8.5, 11.8 (R148, R137, R170): the end of the REPLY's transmission resets the switch, or the port; LINE
is then IDLE with no gap (log entry 18). -/
def Obligations.ResetsTakeEffect : Prop :=
  (∀ (s : State) (k : KioskId), (s.kiosk k).line = .frame → (s.kiosk k).source = .control →
      (s.kiosk k).afterFrame = .switchReset → ∃ t, exec (.frameTransmitEnd k) s = .next t ∧
        (∀ n, t.kiosk n = { s.kiosk n with
          link := .normal, score := 0, cleanCount := 0, cleanTimer := .stopped, rate := (s.kiosk n).recordRate,
          unlocked := false, cursor := none, causes := 0#8, echoPending := false, gathered := RxFrame.empty,
          control := [], touch := [], replyHeld := false, line := .idle, source := .none, scanLast := 2, onLine := [],
          afterFrame := .nothing }) ∧
        (∀ d, (t.device d).record = (s.device d).record ∧ (t.device d).queue = [] ∧
          (t.device d).service = (if (s.device d).record.cls = .unused then .disabled else .offline) ∧
          (t.device d).holding = none ∧ (t.device d).shift = none ∧ (t.device d).brk = .none ∧
          (t.device d).causes = 0#4 ∧ (t.device d).scan = ScanEngine.idle ∧ (t.device d).poller = Poller.idle) ∧
        (∀ i, t.job i = none) ∧ t.routes = s.routes ∧ t.zones = s.zones ∧
        (∀ p, t.panel p = { s.panel p with presence := .unknown, missRun := 0, clamps := 0, causes := 0#2 }) ∧
        (∀ c, t.contact c = .free) ∧ t.free = List.finRange 2048 ∧ t.tight = false ∧ t.grantPointer = 47 ∧
        t.spoolRecord = s.spoolRecord ∧ t.flags = 0#13 ∧ t.noticeMask = 0#13 ∧ t.noticePort = none ∧
        t.store = s.store ∧ t.mem = s.mem) ∧
    ∀ (s : State) (k : KioskId), (s.kiosk k).line = .frame → (s.kiosk k).source = .control →
      (s.kiosk k).afterFrame = .portReset → ∃ t, exec (.frameTransmitEnd k) s = .next t ∧
        t.kiosk k = { s.kiosk k with
          link := .normal, score := 0, cleanCount := 0, cleanTimer := .stopped, rate := (s.kiosk k).recordRate,
          unlocked := false, cursor := none, causes := 0#8, echoPending := false, gathered := RxFrame.empty,
          control := [], touch := [], replyHeld := false, line := .idle, source := .none, scanLast := 2, onLine := [],
          afterFrame := .nothing } ∧
        (∀ slot, t.job (jobIx k slot) = none) ∧ t.noticePort ≠ some k

/-- Sections 1.6.1, 6.8, 11.2 (R14, R15, R101, R164): DEVICE_DRAIN and DEVICE_RESUME by the port's service state, a
DEVICE above 7 refused (its two fields 0xFF by log entry 9); a drained touch port releases the contacts of the panels it
polled. The REPLY stands before a NOTICE of the request's effects by log entry 17. The REPLY's return-target bytes are
log entry 10's, and a touch port's direct OFFLINE during a break is log entry 14's. -/
def Obligations.DrainAndResume : Prop :=
  (∀ (s : State) (k : KioskId) (r : Request) (d : DeviceId),
      s.takes k kindDeviceDrain r = true → (s.kiosk k).replyRoom = true → service r.channel = serviceManage →
      (s.kiosk k).unlocked = true → r.payload = [byte d.val] →
      let G := s.modKiosk k KioskPort.takeGood
      let D := s.device d
      let answer := fun c t : Byte => G.reply k kindDeviceDrain r .ok [c, t]
      let put := fun (u : State) (st : ServiceState) => u.setDevice d { D with service := st }
      (D.service = .disabled →
          exec (.deviceDrain k r) s = .next (G.reply k kindDeviceDrain r .badState [0#8, 0xFF#8])) ∧
        (D.service = .offline → exec (.deviceDrain k r) s = .next (answer 1#8 0xFF#8)) ∧
        (D.service = .draining → exec (.deviceDrain k r) s = .next (answer 3#8 0xFF#8)) ∧
        (D.service = .online → D.record.cls ≠ .touch → s.hasWork d = true →
          exec (.deviceDrain k r) s = .next (put (answer 3#8 0xFF#8) .draining)) ∧
        (D.service = .online → D.record.cls ≠ .touch → s.hasWork d = false →
          exec (.deviceDrain k r) s = .next (put (answer 1#8 0xFF#8) .offline)) ∧
        (D.service = .fault .online → s.hasWork d = true →
          exec (.deviceDrain k r) s = .next (put (answer 4#8 3#8) (.fault .draining))) ∧
        (D.service = .fault .online → s.hasWork d = false →
          exec (.deviceDrain k r) s = .next (put (answer 4#8 1#8) (.fault .offline))) ∧
        (D.service = .fault .draining → exec (.deviceDrain k r) s = .next (answer 4#8 3#8)) ∧
        (D.service = .fault .offline → exec (.deviceDrain k r) s = .next (answer 4#8 1#8)) ∧
        (D.service = .online → D.record.cls = .touch → ∃ t, exec (.deviceDrain k r) s = .next t ∧
          t.device d = { D with service := .offline, holding := none, poller := Poller.idle } ∧
          let enabled := (List.finRange 16).filter fun p => (s.panel p).enabled && decide ((s.panel p).device = d)
          t = (if D.record.format = .multidrop then enabled else enabled.take 1).foldl State.releasePanel
            ((answer 1#8 0xFF#8).setDevice d
              { D with service := .offline, holding := none, poller := Poller.idle }))) ∧
    (∀ (s : State) (k : KioskId) (r : Request) (n : Byte), (s.kiosk k).replyRoom = true →
      service r.channel = serviceManage → (s.kiosk k).unlocked = true → r.payload = [n] → 8 ≤ n.toNat →
      let G := s.modKiosk k KioskPort.takeGood
      (s.takes k kindDeviceDrain r = true →
          exec (.deviceDrain k r) s = .next (G.reply k kindDeviceDrain r .outOfRange [0xFF#8, 0xFF#8])) ∧
        (s.takes k kindDeviceResume r = true →
          exec (.deviceResume k r) s = .next (G.reply k kindDeviceResume r .outOfRange []))) ∧
    ∀ (s : State) (k : KioskId) (r : Request) (d : DeviceId),
      s.takes k kindDeviceResume r = true → (s.kiosk k).replyRoom = true → service r.channel = serviceManage →
      (s.kiosk k).unlocked = true → r.payload = [byte d.val] →
      let G := s.modKiosk k KioskPort.takeGood
      let D := s.device d
      let T := G.reply k kindDeviceResume r .ok []
      (D.service = .disabled ∨ D.service = .draining ∨ D.service = .fault .draining →
          exec (.deviceResume k r) s = .next (G.reply k kindDeviceResume r .badState [])) ∧
        (D.service = .online ∨ D.service = .fault .online → exec (.deviceResume k r) s = .next T) ∧
        (D.service = .fault .offline →
          exec (.deviceResume k r) s = .next (T.setDevice d { D with service := .fault .online })) ∧
        (D.service = .offline → exec (.deviceResume k r) s = .next (
          let U := T.setDevice d { D with service := .online }
          if D.record.cls = .touch then U.startRound d else if D.atn then U.enterFault d .online else U.settle d))

/-- Sections 1.8, 6.9, 10.4, 10.9 (R24, R103, R155, R160): DEVICE_RESET refuses a DEVICE above 7; else its REPLY is
queued, then the ACTIVE job's ending is decided (FAILED_DEVICE_RESET, held for a frame on the line, the held job's
PAUSED no by log entry 16), the engine of the port is at rest with its record, other jobs and causes kept, its data
output at mark and its ATN level restarted, and every panel that names a touch port is released and restarted (all of
them by log entry 28). DEVICE_BREAK is for an OFFLINE port without a break, and waits for the character in the shift
stage (log entry 13). -/
def Obligations.DeviceResetAndBreak : Prop :=
  (∀ (s : State) (k : KioskId) (r : Request) (n : Byte),
      s.takes k kindDeviceReset r = true → (s.kiosk k).replyRoom = true → service r.channel = serviceManage →
      (s.kiosk k).unlocked = true → r.payload = [n] → 8 ≤ n.toNat →
      exec (.deviceReset k r) s = .next ((s.modKiosk k KioskPort.takeGood).reply k kindDeviceReset r .outOfRange [])) ∧
    (∀ (s : State) (k : KioskId) (r : Request) (d : DeviceId),
      s.takes k kindDeviceReset r = true → (s.kiosk k).replyRoom = true → service r.channel = serviceManage →
      (s.kiosk k).unlocked = true → r.payload = [byte d.val] → ∃ t, exec (.deviceReset k r) s = .next t ∧
        (let D := s.device d
         let R := (s.modKiosk k KioskPort.takeGood).reply k kindDeviceReset r .ok []
         let A := match s.activeJob d with | some i => R.decideEnd i .failedDeviceReset | none => R
         let B := A.setDevice d (DevicePort.restartAtn { A.device d with
           service := if D.record.cls = .unused then .disabled else .offline, holding := none, shift := none,
           brk := .none, lineHeld := false, underrun := .stopped, faultLimit := .stopped, scan := ScanEngine.idle,
           poller := Poller.idle })
         let panels := (List.finRange 16).filter fun p => decide ((s.panel p).device = d)
         t = if D.record.cls = .touch then (panels.foldl State.releasePanel B).restartPanels panels else B) ∧
        (t.device d).record = (s.device d).record ∧ (t.device d).causes = (s.device d).causes ∧
        (t.device d).service = (if (s.device d).record.cls = .unused then .disabled else .offline) ∧
        (t.device d).holding = none ∧ (t.device d).shift = none ∧ (t.device d).brk = .none ∧
        (t.device d).sentBits = none ∧ (t.device d).restLevel = true ∧
        (t.device d).lineHeld = false ∧ (t.device d).underrun = .stopped ∧ (t.device d).faultLimit = .stopped ∧
        (t.device d).scan = ScanEngine.idle ∧ (t.device d).poller = Poller.idle ∧
        (s.activeJob d = none → (t.device d).queue = (s.device d).queue) ∧
        (∀ i j, s.activeJob d = some i → s.job i = some j → j.device = d →
          let onLine := j.kind = .scan ∧ (s.kiosk (jobKiosk i)).line = .frame ∧
            (s.kiosk (jobKiosk i)).source = .scan (jobSlot i)
          (j.held ≠ none → t.job i = some j ∧ (t.device d).queue = (s.device d).queue) ∧
            (j.held = none → onLine → t.job i = some { j with held := some .failedDeviceReset, paused := false } ∧
              (t.device d).queue = (s.device d).queue) ∧
            (j.held = none → ¬ onLine →
              t.job i = none ∧ (t.device d).queue = (s.device d).queue.filter fun x => x != i)) ∧
        ((s.device d).record.cls = .touch → ∀ p, (s.panel p).device = d →
          (t.panel p).presence = .unknown ∧ (t.panel p).missRun = 0)) ∧
    ∀ (s : State) (k : KioskId) (r : Request) (n : Byte),
      s.takes k kindDeviceBreak r = true → (s.kiosk k).replyRoom = true → service r.channel = serviceManage →
      (s.kiosk k).unlocked = true → r.payload = [n] →
      let G := s.modKiosk k KioskPort.takeGood
      (8 ≤ n.toNat → exec (.deviceBreak k r) s = .next (G.reply k kindDeviceBreak r .outOfRange [])) ∧
        ∀ d : DeviceId, n.toNat = d.val →
          ((s.device d).service ≠ .offline →
            exec (.deviceBreak k r) s = .next (G.reply k kindDeviceBreak r .badState [])) ∧
          ((s.device d).service = .offline → (s.device d).brk ≠ .none →
            exec (.deviceBreak k r) s = .next (G.reply k kindDeviceBreak r .busy [])) ∧
          ((s.device d).service = .offline → (s.device d).brk = .none →
            exec (.deviceBreak k r) s = .next ((G.reply k kindDeviceBreak r .ok []).setDevice d
              { s.device d with brk := if (s.device d).shift = none then .running else .requested }))

/-! ### The kiosk transmit line -/

/-- Sections 5.5, 8.3, 8.4, 9.1, 9.7 (R83, R132, R134-R136, R138, R150): what TRANSMIT_START starts: the break echo,
then the touch queue's head, the control queue's head, and the next slot's scan block; the frames they become; which
slot has a block to deliver; and where owed UPs are placed. The codes of STATUS, REASON and touch EVENT, and the bits of
a frame's characters and the level of the pair beside them (R138). Nothing starts before the store is read (log entry
27), nor on a line that is not IDLE (log entry 2). -/
def Obligations.TransmitStarts : Prop :=
  (∀ (s : State) (k : KioskId),
      let p := s.kiosk k
      (s.starting = true ∨ p.link = .isolated ∨ p.line ≠ .idle → exec (.transmitStart k) s = .next s) ∧
        (s.starting = false → p.link ≠ .isolated → p.line = .idle →
          (p.echoPending = true →
            exec (.transmitStart k) s = .next (s.setKiosk k { p with echoPending := false, line := .brk })) ∧
          (p.echoPending = false → ∀ e rest, p.touch = e :: rest →
            exec (.transmitStart k) s = .next (
              (s.setKiosk k { p with
                line := .frame, source := .touch, afterFrame := .nothing, touch := rest,
                onLine := frameBytes (byte (192 + (contactPanel e.contact).val)) 0x84#8 0#8
                  ([byte e.zone.val, byte (contactId e.contact).val, byte e.kind.code] ++ be16 e.kx ++
                    be16 e.ky) }).placeOwed k allContacts)) ∧
          (p.echoPending = false → p.touch = [] → ∀ e rest, p.control = e :: rest →
            exec (.transmitStart k) s = .next (s.setKiosk k { p with
              line := .frame, source := .control, afterFrame := e.after, control := rest,
              onLine := s.controlFrame e })) ∧
          (p.echoPending = false → p.touch = [] → p.control = [] → ∀ slot j,
            [p.scanLast + 1, p.scanLast + 2, p.scanLast + 3].find? (s.scanOffer k) = some slot →
            s.job (jobIx k slot) = some j →
            exec (.transmitStart k) s = .next (s.setKiosk k { p with
              line := .frame, source := .scan slot, afterFrame := .nothing, scanLast := slot,
              onLine := frameBytes j.channel 0x83#8 0#8 (byte slot.val :: be24 j.sent ++
                (match j.allocation with | b :: _ => s.blockBytes b (min 128 (j.received - j.sent)) | [] => [])) })) ∧
          (p.echoPending = false → p.touch = [] → p.control = [] →
            [p.scanLast + 1, p.scanLast + 2, p.scanLast + 3].find? (s.scanOffer k) = none →
            exec (.transmitStart k) s = .next s))) ∧
    (∀ (s : State) (ch tag kind : Byte) (st : Status) (f : List Byte) (a : AfterSend),
      s.controlFrame (.reply ch tag kind st f a) = frameBytes ch 0x80#8 tag ([kind, st.code] ++ f)) ∧
    (∀ (s : State) (ch : Byte) (slot : SlotId) (limit : Nat),
      s.controlFrame (.credit ch slot limit) = frameBytes ch 0x81#8 0#8 (byte slot.val :: be24 limit)) ∧
    (∀ (s : State) (ch : Byte) (slot : SlotId) (reason : EndReason) (count : Nat) (le : Bool),
      s.controlFrame (.jobEnd ch slot reason count le) = frameBytes ch 0x82#8 0#8
        ([byte slot.val, reason.code] ++ be24 count ++ [if le then 1#8 else 0#8])) ∧
    (∀ s : State, s.controlFrame .notice =
      frameBytes 0x00#8 0x85#8 0#8 (be16 s.flags.toNat ++ be16 s.noticeMask.toNat)) ∧
    (∀ (s : State) (k : KioskId) (slot : SlotId), s.scanOffer k slot = true ↔ ∃ j b rest,
      s.job (jobIx k slot) = some j ∧ j.kind = .scan ∧ j.state = .active ∧ j.held = none ∧ j.allocation = b :: rest ∧
        (128 ≤ j.received - j.sent ∨ (rest = [] ∧ (s.device j.device).scan.phase = .delivery))) ∧
    (∀ (s : State) (k : KioskId), (∀ c b, s.contact c = .bound b → b.owner = k → b.upOwed = false) →
      s.placeOwed k allContacts = s) ∧
    allContacts = List.finRange 160 ∧
    (∀ row ∈ [(Status.ok, 0x00#8), (.denied, 0x01#8), (.slotBusy, 0x02#8), (.noDevice, 0x03#8), (.queueFull, 0x04#8),
        (.portDegraded, 0x05#8), (.badState, 0x06#8), (.locked, 0x07#8), (.badCode, 0x08#8), (.busy, 0x09#8),
        (.outOfRange, 0x0A#8), (.badRequest, 0x0B#8)], row.1.code = row.2) ∧
    (∀ row ∈ [(EndReason.done, 0#8), (.doneTruncated, 1#8), (.aborted, 2#8), (.failedUnderrun, 3#8), (.failedGap, 4#8),
        (.failedStalled, 5#8), (.failedNoData, 6#8), (.failedDeviceReset, 7#8), (.failedNoDevice, 8#8)],
      row.1.code = row.2) ∧
    (∀ row ∈ [(TouchKind.down, 1), (.move, 2), (.up, 3)], row.1.code = row.2) ∧
    (∀ p : KioskPort,
      p.sentChars = p.onLine.map (fun c => [false, c.getLsbD 0, c.getLsbD 1, c.getLsbD 2, c.getLsbD 3, c.getLsbD 4,
          c.getLsbD 5, c.getLsbD 6, c.getLsbD 7, true]) ∧
        p.restLevel = (match p.line with | .brk => false | .idle => true | .frame => true | .gap => true)) ∧
    ∀ (s : State) (k : KioskId) (c : ContactIx) (cs : List ContactIx),
      s.placeOwed k [] = s ∧
        ((∀ b, s.contact c = .bound b → b.upOwed = false ∨ b.owner ≠ k) ∨ 4 ≤ (s.kiosk k).touch.length →
          s.placeOwed k (c :: cs) = s.placeOwed k cs) ∧
        ∀ b l, s.contact c = .bound b → b.upOwed = true → b.owner = k → b.last = some l →
          (s.kiosk k).touch.length < 4 →
          s.placeOwed k (c :: cs) = ((s.setKiosk k { s.kiosk k with touch :=
            (s.kiosk k).touch ++ [{ contact := c, zone := b.zone, kind := .up, kx := l.1, ky := l.2 }] }).setContact c
              .free).placeOwed k cs

/-- Sections 3.5, 5.4, 5.5, 8.4 (R52, R81, R83, R84, R133, R136): the end of a frame, of the break echo and of the gap;
a SCAN_DATA frame's end delivers its block (R52): it joins the free list's tail, SENT advances, the watermark follows
the chain (R81) and a grant pass runs, before an ending of the same moment (log entry 34). An end without its cause
changes nothing (log entry 2). -/
def Obligations.TransmitEnds : Prop :=
  (∀ (s : State) (k : KioskId),
      let p := s.kiosk k
      let E := s.setKiosk k { p with line := .gap, source := .none, onLine := [], afterFrame := .nothing }
      (p.line ≠ .frame → exec (.frameTransmitEnd k) s = .next s) ∧
        (p.line = .frame → p.source = .none ∨ p.source = .touch ∨ (p.source = .control ∧ p.afterFrame = .nothing) →
          exec (.frameTransmitEnd k) s = .next E) ∧
        (∀ slot, p.line = .frame → p.source = .scan slot → s.job (jobIx k slot) = none →
          exec (.frameTransmitEnd k) s = .next E) ∧
        ∀ slot j b rest, p.line = .frame → p.source = .scan slot → s.job (jobIx k slot) = some j → j.kind = .scan →
          j.allocation = b :: rest → ∃ T : State,
            T.job (jobIx k slot) = some { j with allocation := rest, sent := j.sent + min 128 (j.received - j.sent) } ∧
              T = (((((E.setJob (jobIx k slot) (some { j with allocation := rest })).setFree (s.free ++ [b])).evalTight
                ).setJob (jobIx k slot) (some { j with
                  allocation := rest, sent := j.sent + min 128 (j.received - j.sent) })).evalWatermark
                    (jobIx k slot)).grantPass ∧
              exec (.frameTransmitEnd k) s = .next ((match j.held with
                | some reason => T.endJob (jobIx k slot) reason
                | none =>
                  if (T.device j.device).scan.phase = Phase.delivery ∧ rest = [] then
                    T.endJob (jobIx k slot) (if j.truncated then .doneTruncated else .done)
                  else T).settle j.device)) ∧
    (∀ (s : State) (i : JobId),
      (s.job i = none → s.evalWatermark i = s) ∧
        ∀ j, s.job i = some j →
          let P := s.device j.device
          let clear := if P.record.holdClear < P.record.holdSet then P.record.holdClear else P.record.holdSet - 1
          let mark := if P.record.holdSet ≤ j.allocation.length then true
            else if j.allocation.length ≤ clear then false else P.scan.watermark
          (P.scan.phase = .none → s.evalWatermark i = s) ∧
            (P.scan.phase ≠ .none → s.evalWatermark i = s.setDevice j.device { P with scan := { P.scan with
              watermark := mark,
              gap := if P.scan.gap = .stopped then .stopped
                else if j.paused = true ∨ (P.record.holdMode = .auto ∧ mark = true) then .suspended
                else .running P.record.endGap } })) ∧
    ∀ (s : State) (k : KioskId),
      ((s.kiosk k).line = .brk → exec (.breakEchoEnd k) s = .next (s.setKiosk k { s.kiosk k with line := .gap })) ∧
        ((s.kiosk k).line ≠ .brk → exec (.breakEchoEnd k) s = .next s) ∧
        ((s.kiosk k).line = .gap → exec (.lineGapEnd k) s = .next (s.setKiosk k { s.kiosk k with line := .idle })) ∧
        ((s.kiosk k).line ≠ .gap → exec (.lineGapEnd k) s = .next s)

/-! ### Device ports -/

/-- Sections 1.6.2, 1.6.3, 5.7 (R17-R20, R87): ATN qualification, FAULT entry and exit, with an ACTIVE job of each kind
and phase or without one. An expiry without a period changes nothing (log entry 2). -/
def Obligations.AtnQualification : Prop :=
  (∀ (s : State) (d : DeviceId) (high : Bool),
      let P := { s.device d with atnPin := high }
      let level := high != P.record.atnLow
      (level = P.atn → exec (.atnLineChange d high) s = .next (s.setDevice d { P with blanking := .stopped })) ∧
        (level ≠ P.atn → P.record.atnBlanking = 0 →
          exec (.atnLineChange d high) s = .next ((s.setDevice d P).qualify d level)) ∧
        (level ≠ P.atn → P.record.atnBlanking ≠ 0 → P.blanking = .stopped →
          exec (.atnLineChange d high) s = .next (s.setDevice d { P with
            blanking := Timer.running (if P.record.atnBlanking = 1 then 2 else if P.record.atnBlanking = 2 then 8 else 32) })) ∧
        (level ≠ P.atn → P.record.atnBlanking ≠ 0 → P.blanking ≠ .stopped →
          exec (.atnLineChange d high) s = .next (s.setDevice d P))) ∧
    (∀ (s : State) (d : DeviceId),
      (∀ n, (s.device d).blanking = .running n →
          exec (.atnBlankingExpiry d) s = .next (s.qualify d ((s.device d).atnPin != (s.device d).record.atnLow))) ∧
        ((∀ n, (s.device d).blanking ≠ .running n) → exec (.atnBlankingExpiry d) s = .next s)) ∧
    (∀ (s : State) (d : DeviceId) (level : Bool),
      let D := s.device d
      let T := s.setDevice d { D with atn := level, blanking := .stopped }
      (D.service = .online → level = true → D.record.cls ≠ .touch → s.qualify d level = T.enterFault d .online) ∧
        (D.service = .online → level = true → D.record.cls = .touch →
          s.qualify d level = if D.poller.running then T else T.startRound d) ∧
        (D.service = .draining → level = true → D.record.cls ≠ .touch →
          s.qualify d level = T.enterFault d .draining) ∧
        (∀ target, D.service = .fault target → level = false → s.qualify d level = T.leaveFault d target) ∧
        (D.service = .disabled ∨ D.service = .offline ∨ ((D.service = .online ∨ D.service = .draining) ∧ level = false) ∨
            (D.service = .draining ∧ D.record.cls = .touch) ∨ ((∃ target, D.service = .fault target) ∧ level = true) →
          s.qualify d level = T)) ∧
    (∀ (s : State) (d : DeviceId) (target : ReturnTarget), s.activeJob d = none →
      s.enterFault d target = (s.setDevice d { s.device d with service := .fault target }).raise .deviceFault ∧
        s.leaveFault d target = (s.setDevice d { (s.device d).unpause with service := target.state }).settle d) ∧
    (∀ (s : State) (d : DeviceId) (target : ReturnTarget) (i : JobId) (j : Job), s.activeJob d = some i →
      s.job i = some j →
      let D := s.device d
      let F := (s.setDevice d { D with service := .fault target }).raise .deviceFault
      (j.kind = .print ∨ D.scan.phase = .reception → s.enterFault d target =
          (F.setDevice d { D with
            service := .fault target, faultLimit := .running D.record.faultLimit, underrun := .stopped,
            scan := { D.scan with
              firstByte := if D.scan.firstByte = .stopped then .stopped else .suspended,
              gap := if D.scan.gap = .stopped then .stopped else .suspended } }).setJob i
            (some { j with paused := true })) ∧
        (j.kind = .scan → D.scan.phase ≠ .reception → s.enterFault d target = F) ∧
        s.leaveFault d target = ((s.setDevice d { D.unpause with service := target.state }).setJob i
          (some { j with paused := false })).settle d) ∧
    (∀ p : DevicePort, p.unpause = { p with
      faultLimit := .stopped,
      scan := { p.scan with
        firstByte := if p.scan.firstByte = .suspended then .running p.record.firstByteTimeout else p.scan.firstByte,
        gap := if p.scan.gap = .stopped then .stopped
          else if p.record.holdMode = .auto ∧ p.scan.watermark = true then .suspended
          else .running p.record.endGap } }) ∧
    ∀ (s : State) (d : DeviceId) (target : ReturnTarget),
      ((s.enterFault d target).device d).service = .fault target ∧
        Flag.deviceFault.isIn (s.enterFault d target).flags = true ∧
        (target.state = match target with | .online => .online | .draining => .draining | .offline => .offline)

/-- Sections 1.3, 1.5, 1.6.1, 3.4, 4.5, 4.6, 5.2, 10.2-10.4 (R8, R12, R16, R49, R64-R67, R69, R75, R76, R152-R154): the
transmitter's events, and what follows them on the port: a break, the drain's completion, the scheduler's choice, the
byte an engine hands next and its move, the underrun timer, the end of a finished print job, and so on again (in the
order of log entry 29); the bits of a sent character, and the level of the data output beside them. A byte of a PAUSED
job stays in the holding stage. An event without its cause changes nothing (log entry 2). COMMAND bytes are handed in
DELIVERY too (log entry 15), and a requested break waits for the shift stage (log entry 13). -/
def Obligations.DeviceTransmitter : Prop :=
  (∀ (s : State) (d : DeviceId) (high : Bool),
      exec (.rdyChange d high) s = .next ((s.setDevice d { s.device d with rdyPin := high }).settle d)) ∧
    (∀ (s : State) (d : DeviceId),
      let D := s.device d
      (D.shift = none → exec (.characterSent d) s = .next s) ∧
        (D.shift ≠ none → (∀ p, D.poller.current ≠ some (p, .sending)) ∨ D.holding ≠ none →
          exec (.characterSent d) s = .next ((s.setDevice d { D with shift := none }).settle d)) ∧
        (∀ p, D.shift ≠ none → D.poller.current = some (p, .sending) → D.holding = none →
          exec (.characterSent d) s = .next ((s.setDevice d
            { D with
              shift := none,
              poller := { D.poller with current := some (p, .awaiting D.record.replyTimeout) } }).settle d)) ∧
        (D.brk = .running → exec (.deviceBreakEnd d) s = .next ((s.setDevice d { D with brk := .none }).settle d)) ∧
        (D.brk ≠ .running → exec (.deviceBreakEnd d) s = .next s)) ∧
    (∀ (s : State) (d : DeviceId),
      let D := s.device d
      D.queue = [] → D.brk = .none → D.service ≠ .draining → D.service ≠ .fault .draining →
      s.settle d = s.setDevice d
        (if D.shift = none ∧ D.holding ≠ none ∧ (D.rdyPin != D.record.rdyLow) = true then
          { D with shift := D.holding, holding := none, underrun := .stopped }
        else { D with underrun := .stopped })) ∧
    (∀ (s : State) (d : DeviceId),
      let R := ((((((s.modDevice d DevicePort.startBreak).completeDrain d).schedule d).feed d).moveTx d).feed
        d).updateUnderrun d
      (R.finishedPrint d = none → s.settle d = R) ∧
        ∀ i j, R.finishedPrint d = some i → R.job i = some j → j.device = d → (s.device d).queue.Nodup →
          s.settle d = (R.endJob i .done).settle d) ∧
    (∀ p : DevicePort, p.startBreak =
      if (p.brk = .requested ∧ p.shift = none) ∨
          (p.brk = .owed ∧ (p.service = .online ∨ p.service = .draining) ∧ p.holding = none ∧ p.shift = none)
      then { p with brk := .running } else p) ∧
    (∀ (s : State) (d : DeviceId),
      let D := s.device d
      let work := s.activeJob d ≠ none ∨ D.scan.flush = true ∨ D.brk ≠ .none
      (¬ work → D.service = .draining →
          s.completeDrain d = (s.setDevice d { D with service := .offline }).raise .deviceDrained) ∧
        (¬ work → D.service = .fault .draining →
          s.completeDrain d = (s.setDevice d { D with service := .fault .offline }).raise .deviceDrained) ∧
        (work ∨ (D.service ≠ .draining ∧ D.service ≠ .fault .draining) → s.completeDrain d = s)) ∧
    (∀ (s : State) (d : DeviceId),
      let Q := (s.device d).queue
      (s.activeJob d = none ↔ ∀ i ∈ Q, ∀ j, s.job i = some j → j.state ≠ .active) ∧
        ∀ i, s.activeJob d = some i → i ∈ Q ∧ ∃ j, s.job i = some j ∧ j.state = .active) ∧
    (∀ (s : State) (d : DeviceId),
      let D := s.device d
      let may := D.service = .online ∧ s.activeJob d = none ∧ D.scan.flush = false ∧ D.brk = .none
      (¬ may → s.schedule d = s) ∧
        ((∀ i ∈ D.queue, ∀ j, s.job i = some j → j.state ≠ .ready) → s.schedule d = s) ∧
        ∀ a i b j, may → D.queue = a ++ i :: b → s.job i = some j → j.state = .ready →
          (∀ n ∈ a, ∀ x, s.job n = some x → x.state = .ready → j.priority.toNat < x.priority.toNat) →
          (∀ n ∈ b, ∀ x, s.job n = some x → x.state = .ready → j.priority.toNat ≤ x.priority.toNat) →
          let P := s.device j.device
          s.schedule d = (s.setDevice j.device (match j.kind with
            | .print => { P with underrun := .stopped }
            | .scan => { P with scan := { P.scan with
                phase := .reception, commandLeft := j.command.length,
                firstByte := .running P.record.firstByteTimeout, gap := .stopped, watermark := false } })).setJob i
              (some { j with state := .active })) ∧
    (∀ (s : State) (d : DeviceId),
      let D := s.device d
      (D.holding ≠ none ∨ s.activeJob d = none → s.feed d = s) ∧
        ∀ i j, D.holding = none → s.activeJob d = some i → s.job i = some j →
          (j.paused = true → s.feed d = s) ∧
          (j.kind = .print → j.received ≤ j.sent ∨ j.allocation = [] → s.feed d = s) ∧
          (∀ b rest, j.kind = .print → j.paused = false → j.sent < j.received → j.allocation = b :: rest →
            let T := s.setDevice d
              { D with holding := some { data := s.readBlock b (j.sent % 128), address := false } }
            let last := j.sent = j.freedBlocks * 128 + 127 ∨ (j.complete = true ∧ j.sent + 1 = j.declaredLength)
            (¬ last → s.feed d = T.setJob i (some { j with sent := j.sent + 1 })) ∧
              (last → s.feed d = (((T.setJob i (some { j with
                sent := j.sent + 1, allocation := rest, freedBlocks := j.freedBlocks + 1 })).setFree
                (s.free ++ [b])).evalTight).grantPass)) ∧
          (j.kind = .scan → D.scan.commandLeft = 0 → s.feed d = s) ∧
          (j.kind = .scan → j.paused = false → 0 < D.scan.commandLeft → s.feed d = s.setDevice d { D with
            holding := some
              { data := j.command.getD (j.command.length - D.scan.commandLeft) 0#8, address := false },
            scan := { D.scan with commandLeft := D.scan.commandLeft - 1 } })) ∧
    (∀ (s : State) (d : DeviceId),
      let D := s.device d
      let paused := ∃ i j, s.activeJob d = some i ∧ s.job i = some j ∧ j.paused = true
      let ready := D.shift = none ∧ D.holding ≠ none ∧ (D.rdyPin != D.record.rdyLow) = true ∧ D.brk ≠ .running
      (paused ∨ ¬ ready → s.moveTx d = s) ∧
        (¬ paused → ready → s.moveTx d = s.setDevice d { D with shift := D.holding, holding := none })) ∧
    (∀ (s : State) (d : DeviceId),
      let D := s.device d
      let short := ∃ i j, s.activeJob d = some i ∧ s.job i = some j ∧ j.kind = .print ∧ j.paused = false ∧
        j.complete = false ∧ j.sent = j.received
      (¬ short → s.updateUnderrun d = s.setDevice d { D with underrun := .stopped }) ∧
        (short → D.underrun = .stopped →
          s.updateUnderrun d = s.setDevice d { D with underrun := .running D.record.underrunTimeout }) ∧
        (short → D.underrun ≠ .stopped → s.updateUnderrun d = s)) ∧
    (∀ (s : State) (d : DeviceId) (i : JobId), s.finishedPrint d = some i ↔ s.activeJob d = some i ∧
      ∃ j, s.job i = some j ∧ j.kind = .print ∧ j.complete = true ∧ j.sent = j.declaredLength ∧
        (j.declaredLength = 0 ∨ ((s.device d).holding = none ∧ (s.device d).shift = none))) ∧
    (∀ p : DevicePort, p.restLevel = (match p.brk with
      | .running => false
      | .none => true
      | .owed => true
      | .requested => true)) ∧
    (∀ (s : State) (d : DeviceId) (rec : DeviceRecord),
      ∀ p ∈ [s.poweredOn.device d, s.resetSwitch.device d, (s.device d).resetEngine, (s.device d).restartEngine rec],
        p.sentBits = none ∧ p.restLevel = true) ∧
    ∀ (p : DevicePort) (c : TxChar),
      let data := (List.range 8).map fun n => c.data.getLsbD n
      (p.shift = none → p.sentBits = none) ∧
        (p.shift = some c →
          (p.record.format = .f8N1 → p.sentBits = some ([false] ++ data ++ [true])) ∧
          (p.record.format = .f8E1 → ∃ parity, p.sentBits = some ([false] ++ data ++ [parity, true]) ∧
            (data ++ [parity]).count true % 2 = 0) ∧
          (p.record.format = .f8O1 → ∃ parity, p.sentBits = some ([false] ++ data ++ [parity, true]) ∧
            (data ++ [parity]).count true % 2 = 1) ∧
          (p.record.format = .multidrop → p.sentBits = some ([false] ++ data ++ [c.address, true])))

/-- Sections 1.6.3, 4.5, 5.3, 5.6, 10.5 (R20, R66, R78, R79, R86, R156): the device timers, the end of the flush and
the line's return to mark. An expiry without its timer changes nothing (log entry 2), nor does END_GAP_REACHED or
FLUSH_END on a line held at space (log entry 26). -/
def Obligations.DeviceTimers : Prop :=
  ∀ (s : State) (d : DeviceId),
    let D := s.device d
    ((∀ n, D.faultLimit ≠ .running n) → exec (.faultLimitExpiry d) s = .next s) ∧
      (∀ n, D.faultLimit = .running n → s.activeJob d = none →
        exec (.faultLimitExpiry d) s = .next (s.setDevice d { D with faultLimit := .stopped })) ∧
      (∀ n i, D.faultLimit = .running n → s.activeJob d = some i →
        exec (.faultLimitExpiry d) s =
          .next (((s.setDevice d { D with faultLimit := .stopped }).decideEnd i .failedStalled).settle d)) ∧
      ((∀ n, D.underrun ≠ .running n) ∨ s.activeJob d = none → exec (.underrunTimeoutExpiry d) s = .next s) ∧
      (∀ n i, D.underrun = .running n → s.activeJob d = some i →
        exec (.underrunTimeoutExpiry d) s = .next ((s.endJob i .failedUnderrun).settle d)) ∧
      ((∀ n, D.scan.firstByte ≠ .running n) ∨ s.activeJob d = none →
        exec (.firstByteTimeoutExpiry d) s = .next s) ∧
      (∀ n i, D.scan.firstByte = .running n → s.activeJob d = some i →
        exec (.firstByteTimeoutExpiry d) s = .next ((s.endJob i .failedNoData).settle d)) ∧
      ((∀ n, D.scan.gap ≠ .running n) ∨ D.lineHeld = true → exec (.endGapReached d) s = .next s) ∧
      (∀ n i j, D.scan.gap = .running n → D.lineHeld = false → s.activeJob d = some i → s.job i = some j →
        j.device = d →
        exec (.endGapReached d) s = .next (
          let T := s.setDevice d { D with scan := { D.scan with phase := .delivery, gap := .stopped } }
          if j.allocation = [] then (T.endJob i (if j.truncated then .doneTruncated else .done)).settle d
          else T.settle d)) ∧
      (D.scan.flush = true → D.lineHeld = false →
        exec (.flushEnd d) s = .next ((s.setDevice d { D with scan := { D.scan with flush := false } }).settle d)) ∧
      (D.scan.flush = false ∨ D.lineHeld = true → exec (.flushEnd d) s = .next s) ∧
      exec (.deviceLineReturnToMark d) s = .next (s.setDevice d { D with lineHeld := false })

/-- Sections 1.6.4, 5.3-5.7, 9.7, 10.5, 10.7, 10.8 (R21, R77, R80-R82, R84, R86, R88, R150, R156, R158, R159): a
character received on a device port, by the port's class and service state; the latching of UNSOLICITED; the truncation
stop of one that cannot be stored; and the watermark (R81), the HOLD line (R82) and its pin (R159), which follow the
chain. -/
def Obligations.CharactersReceived : Prop :=
  (∀ (s : State) (d : DeviceId) (data : Byte) (ninth stopMark : Bool),
      let D := s.device d
      let parity := parityError D.record.format data ninth
      let bad := parity || !stopMark
      let L := s.setDevice d { D with
        causes := (if parity then D.causes ||| 1#4 else D.causes) ||| (if stopMark then 0#4 else 2#4),
        lineHeld := !stopMark }
      let c : Instr := .deviceCharReceived d data ninth stopMark
      (D.lineHeld = true → exec c s = .next s) ∧
        (D.lineHeld = false →
          ((D.record.cls = .unused ∨ D.service = .disabled ∨ (D.record.cls = .printer ∧ D.service ≠ .offline) ∨
              (D.record.cls = .touch ∧ D.service ≠ .online)) → exec c s = .next L) ∧
          ((D.record.cls = .printer ∨ D.record.cls = .scanner) → D.service = .offline →
            exec c s = .next (
              if D.record.wakeOnActivity then (L.raise .deviceActivity).becomeOnline d else L.raise .deviceActivity)) ∧
          (D.record.cls = .touch → D.service = .online →
            exec c s = .next (L.touchChar d data (decide (D.record.format = .multidrop) && ninth))) ∧
          (D.record.cls = .scanner → (D.service = .online ∨ D.service = .draining ∨ ∃ t, D.service = .fault t) →
            (D.scan.flush = true → exec c s = .next L) ∧
            (D.scan.flush = false → D.scan.phase ≠ .reception →
              exec c s = .next (L.latchDevice d .unsolicited)) ∧
            ∀ i j, D.scan.flush = false → D.scan.phase = .reception → s.activeJob d = some i → s.job i = some j →
              j.kind = .scan →
              (16777215 ≤ j.received → exec c s = .next (L.truncate d i)) ∧
              (∀ b, j.received < 16777215 → j.allocation.getLast? = some b → j.tailFill < 128 →
                exec c s = .next (
                  ((L.writeBlock b j.tailFill data).setJob i
                    (some { j with received := j.received + 1, lineErrors := j.lineErrors || bad })).modDevice d
                    (DevicePort.charStored j.paused))) ∧
              (j.received < 16777215 → (j.allocation = [] ∨ 128 ≤ j.tailFill) →
                (s.free = [] ∨ (s.kiosk (jobKiosk i)).quota ≤ s.holdingOf (jobKiosk i) ∨
                  j.maxBlocks ≤ j.allocation.length) →
                exec c s = .next (L.truncate d i)) ∧
              ∀ b rest, j.received < 16777215 → (j.allocation = [] ∨ 128 ≤ j.tailFill) → s.free = b :: rest →
                s.holdingOf (jobKiosk i) < (s.kiosk (jobKiosk i)).quota → j.allocation.length < j.maxBlocks →
                ∃ T : State, T.job i = some { j with allocation := j.allocation ++ [b] } ∧
                  T = (((L.setFree rest).setJob i (some { j with allocation := j.allocation ++ [b] })).evalTight).evalWatermark
                    i ∧
                  exec c s = .next (
                    ((T.writeBlock b 0 data).setJob i (some { j with
                      allocation := j.allocation ++ [b], received := j.received + 1,
                      lineErrors := j.lineErrors || bad })).modDevice d (DevicePort.charStored j.paused))))) ∧
    (∀ (s : State) (d : DeviceId), s.latchDevice d .unsolicited =
      s.setDevice d { s.device d with causes := (s.device d).causes ||| 4#4 }) ∧
    (∀ (data : Byte) (ninth : Bool),
      let ones := ((List.range 8).filter fun n => data.getLsbD n).length + (if ninth then 1 else 0)
      (parityError .f8E1 data ninth = true ↔ ones % 2 = 1) ∧ (parityError .f8O1 data ninth = true ↔ ones % 2 = 0) ∧
        parityError .f8N1 data ninth = false ∧ parityError .multidrop data ninth = false) ∧
    (∀ (s : State) (d : DeviceId) (i : JobId) (j : Job), s.job i = some j → j.device = d →
      let D := s.device d
      let T := (s.setDevice d { D with
        causes := D.causes ||| 8#4, faultLimit := .stopped,
        scan := { D.scan with phase := .delivery, firstByte := .stopped, gap := .stopped, flush := true } }).setJob i
          (some { j with truncated := true, paused := false })
      s.truncate d i = (if j.allocation = [] then T.endJob i .doneTruncated else T).settle d) ∧
    (∀ (s : State) (i : JobId),
      (s.job i = none → s.evalWatermark i = s) ∧
        ∀ j, s.job i = some j →
          let P := s.device j.device
          let clear := if P.record.holdClear < P.record.holdSet then P.record.holdClear else P.record.holdSet - 1
          let mark := if P.record.holdSet ≤ j.allocation.length then true
            else if j.allocation.length ≤ clear then false else P.scan.watermark
          (P.scan.phase = .none → s.evalWatermark i = s) ∧
            (P.scan.phase ≠ .none → s.evalWatermark i = s.setDevice j.device { P with scan := { P.scan with
              watermark := mark,
              gap := if P.scan.gap = .stopped then .stopped
                else if j.paused = true ∨ (P.record.holdMode = .auto ∧ mark = true) then .suspended
                else .running P.record.endGap } })) ∧
    (∀ p : DevicePort,
      (p.hold = true ↔ p.record.holdMode = .forceActive ∨
          (p.record.holdMode = .auto ∧
            (p.scan.flush = true ∨ (p.scan.phase ≠ .none ∧ p.scan.watermark = true)))) ∧
        p.holdPin = if p.record.holdLow then !p.hold else p.hold) ∧
    ∀ (p : DevicePort) (paused : Bool),
      (DevicePort.charStored paused p).scan.firstByte = .stopped ∧
        (DevicePort.charStored paused p).scan.gap =
          if paused = true ∨ (p.record.holdMode = .auto ∧ p.scan.watermark = true) then .suspended
          else .running p.record.endGap

/-- Sections 6.2, 6.3, 6.4, 6.6 (R92-R96, R98): the panels a port polls, the poller's four events, a round's start, and
a miss. An event without its cause changes nothing (log entry 2), nor does one that waits for idle time on a line held
at space (log entry 26); the interval timer runs on after its expiry (log entry 19). -/
def Obligations.PollerEvents : Prop :=
  (∀ (s : State) (d : DeviceId),
      let D := s.device d
      let Q := D.poller
      ((∀ n, Q.interval ≠ .running n) → exec (.pollIntervalExpiry d) s = .next s) ∧
        (∀ n, Q.interval = .running n → exec (.pollIntervalExpiry d) s = .next (
          if Q.running then s.setDevice d { D with poller := { Q with roundDue := true } } else s.startRound d)) ∧
        (s.polledPanels d = [] → s.startRound d = s.setDevice d { D with poller :=
          { running := false, pending := [], current := none, roundDue := false,
            interval := .running D.record.pollInterval } }) ∧
        (∀ p rest, s.polledPanels d = p :: rest → s.startRound d = (s.setDevice d { D with
          holding := some { data := (s.panel p).address, address := decide (D.record.format = .multidrop) },
          poller := { running := true, pending := rest, current := some (p, .sending), roundDue := false,
                      interval := .running D.record.pollInterval } }).settle d) ∧
        (∀ p n, Q.current = some (p, .awaiting n) → exec (.replyTimeoutExpiry d) s = .next (
          (s.setDevice d { D with poller := { Q with current := some (p, .settling true) } }).miss p)) ∧
        ((∀ p n, Q.current ≠ some (p, .awaiting n)) → exec (.replyTimeoutExpiry d) s = .next s) ∧
        (∀ p bytes, Q.current = some (p, .receiving bytes) → D.lineHeld = false →
          exec (.replyIdleLimit d) s = .next (
            ((s.setDevice d { D with poller := { Q with current := some (p, .settling false) } }).latchPanel p
              .replyMalformed).miss p)) ∧
        ((∀ p bytes, Q.current ≠ some (p, .receiving bytes)) ∨ D.lineHeld = true →
          exec (.replyIdleLimit d) s = .next s) ∧
        (∀ c latches p rest, Q.current = some (c, .settling latches) → D.lineHeld = false → Q.pending = p :: rest →
          exec (.settlingEnd d) s = .next (s.beginPoll d p rest)) ∧
        (∀ c latches, Q.current = some (c, .settling latches) → D.lineHeld = false → Q.pending = [] →
          exec (.settlingEnd d) s = .next (
            let T := s.setDevice d { D with poller := { Q with running := false, current := none } }
            if Q.roundDue then T.startRound d else T)) ∧
        ((∀ c latches, Q.current ≠ some (c, .settling latches)) ∨ D.lineHeld = true →
          exec (.settlingEnd d) s = .next s)) ∧
    (∀ (s : State) (d : DeviceId),
      let D := s.device d
      let enabled := (List.finRange 16).filter fun p => (s.panel p).enabled && decide ((s.panel p).device = d)
      (D.record.cls ≠ .touch ∨ D.service ≠ .online → s.polledPanels d = []) ∧
        (D.record.cls = .touch → D.service = .online →
          s.polledPanels d = if D.record.format = .multidrop then enabled else enabled.take 1)) ∧
    ∀ (s : State) (p : PanelId),
      let E := s.panel p
      (E.missRun < 7 ∨ E.presence = .absent → s.miss p = s.setPanel p { E with missRun := min 8 (E.missRun + 1) }) ∧
        (7 ≤ E.missRun → E.presence ≠ .absent → s.miss p =
          ((s.setPanel p { E with missRun := 8, presence := .absent }).raise .panelAbsent).releasePanel p)

/-- Sections 6.1, 6.4-6.6, 9.7 (R90, R94-R97, R99, R150): a character on an ONLINE touch port by the poll's step; when a
reply is malformed or complete; what a good reply does to its panel; which reports are kept, with their layout; and the
latching of a panel's two causes. -/
def Obligations.PollReplies : Prop :=
  (∀ (s : State) (d : DeviceId) (data : Byte) (address : Bool),
      let D := s.device d
      let Q := D.poller
      let step := fun (p : PanelId) (x : PollStep) => s.setDevice d { D with poller := { Q with current := some (p, x) } }
      ((Q.current = none ∨ (∃ p, Q.current = some (p, .sending)) ∨ ∃ p, Q.current = some (p, .settling true)) →
          s.touchChar d data address = s.latchDevice d .unsolicited) ∧
        ((∃ p, Q.current = some (p, .settling false)) → s.touchChar d data address = s) ∧
        ∀ (p : PanelId) (before : List Byte),
          ((before = [] ∧ ∃ n, Q.current = some (p, .awaiting n)) ∨ Q.current = some (p, .receiving before)) →
          let bytes := before ++ [data]
          let count := byteAt bytes 0
          ((address = true ∨ 8 < count) → s.touchChar d data address =
              ((step p (.settling false)).latchPanel p .replyMalformed).miss p) ∧
            (address = false → count ≤ 8 → bytes.length = 1 + 5 * count → s.touchChar d data address =
              ((step p (.settling true)).goodReply p).takeReports p (bytes.drop 1) count) ∧
            (address = false → count ≤ 8 → bytes.length ≠ 1 + 5 * count → s.touchChar d data address =
              step p (.receiving bytes))) ∧
    (∀ (s : State) (p : PanelId),
      let E := s.panel p
      let T := s.setPanel p { E with missRun := 0, presence := .present }
      s.goodReply p = if E.presence = .absent then T.raise .panelPresent else T) ∧
    (∀ (s : State) (p : PanelId) (r rest : List Byte) (n : Nat), r.length = 5 →
      s.takeReports p rest 0 = s ∧ s.takeReports p (r ++ rest) (n + 1) = (s.takeReport p r).takeReports p rest n) ∧
    (∀ (s : State) (p : PanelId),
      s.latchPanel p .replyMalformed = s.setPanel p { s.panel p with causes := (s.panel p).causes ||| 1#2 } ∧
        s.latchPanel p .reportBad = s.setPanel p { s.panel p with causes := (s.panel p).causes ||| 2#2 }) ∧
    ∀ (s : State) (p : PanelId) (a b c e f : Byte),
      let r := [a, b, c, e, f]
      ((a.toNat + b.toNat + c.toNat + e.toNat + f.toNat) % 256 ≠ 0xFF ∨ a.toNat / 16 = 0 ∨ 3 < a.toNat / 16 ∨
          9 < a.toNat % 16 → s.takeReport p r = s.latchPanel p .reportBad) ∧
        ∀ (i : Fin 10) (k : TouchKind), (a.toNat + b.toNat + c.toNat + e.toNat + f.toNat) % 256 = 0xFF →
          a.toNat / 16 = (match k with | .down => 1 | .move => 2 | .up => 3) → a.toNat % 16 = i.val →
          s.takeReport p r =
            s.handleReport p i k (b.toNat * 16 + c.toNat / 16) (c.toNat % 16 * 256 + e.toNat)

/-! ### Contacts and the touch queue -/

/-- Sections 7.1, 7.4, 7.7 (R107, R112, R113, R115, R117-R120): what a report does to its contact record and to the
owner of the captured zone, by the table of 7.7. -/
def Obligations.ReportsOnContacts : Prop :=
  (∀ (s : State) (p : PanelId) (i : Fin 10) (k : TouchKind) (x y : Nat),
      let E := s.panel p
      let clamped := calClamped x E.offsetX E.gainX || calClamped y E.offsetY E.gainY
      s.handleReport p i k x y =
        (s.setPanel p (if clamped then { E with clamps := min 65535 (E.clamps + 1) } else E)).contactEvent
          (contactIx p i) k E.moveSuppress (E.canvas x y)) ∧
    (∀ (s : State) (p : PanelId) (pt : Nat × Nat) (z : ZoneId),
      let inside := fun n : ZoneId => (s.zone n).enabled = true ∧ (s.zone n).panel = p ∧ (s.zone n).x0 ≤ pt.1 ∧
        pt.1 ≤ (s.zone n).x1 ∧ (s.zone n).y0 ≤ pt.2 ∧ pt.2 ≤ (s.zone n).y1
      (s.searchZone p pt = some z ↔ inside z ∧ ∀ n, n < z → ¬ inside n) ∧
        (s.searchZone p pt = none ↔ ∀ n, ¬ inside n)) ∧
    ∀ (s : State) (c : ContactIx) (sup : Bool) (pt : Nat × Nat),
      let fresh := fun t : State => t.freshDown c pt
      let put := fun (t : State) (r : Contact) => t.setContact c r
      (s.contact c = .free ∨ s.contact c = .unzoned →
          s.contactEvent c .down sup pt = fresh s ∧ s.contactEvent c .move sup pt = s) ∧
        (s.contact c = .free → s.contactEvent c .up sup pt = s) ∧
        (s.contact c = .unzoned → s.contactEvent c .up sup pt = put s .free) ∧
        (s.searchZone (contactPanel c) pt = none → fresh s = put s .unzoned) ∧
        (∀ z, s.searchZone (contactPanel c) pt = some z →
          let Z := s.zone z
          let b : Binding :=
            { owner := Z.kiosk, zone := z, x0 := Z.x0, y0 := Z.y0, x1 := Z.x1, y1 := Z.y1, width := Z.width,
              height := Z.height, visible := false, upOwed := false, last := none }
          ((s.kiosk Z.kiosk).link = .isolated → fresh s = put s (.bound b)) ∧
            ((s.kiosk Z.kiosk).link ≠ .isolated →
              let m := b.map pt
              let H := s.handTouch Z.kiosk { contact := c, zone := z, kind := .down, kx := m.1, ky := m.2 }
              fresh s = put H.1 (.bound (if H.2 = .joined then { b with visible := true, last := some m } else b)))) ∧
        ∀ b, s.contact c = .bound b →
          let m := b.map pt
          (b.upOwed = true → s.contactEvent c .move sup pt = s ∧ s.contactEvent c .up sup pt = s) ∧
            (b.upOwed = false → b.visible = false →
              s.contactEvent c .move sup pt = s ∧ s.contactEvent c .up sup pt = put s .free ∧
                s.contactEvent c .down sup pt = fresh (put s .free)) ∧
            (b.upOwed = false → b.visible = true → sup = true → b.last = some m →
              s.contactEvent c .move sup pt = s) ∧
            (b.upOwed = false → b.visible = true → sup = false ∨ b.last ≠ some m →
              let H := s.handTouch b.owner { contact := c, zone := b.zone, kind := .move, kx := m.1, ky := m.2 }
              s.contactEvent c .move sup pt =
                if H.2 = .joined then put H.1 (.bound { b with last := some m }) else H.1) ∧
            (b.upOwed = false → b.visible = true →
              let H := s.handTouch b.owner { contact := c, zone := b.zone, kind := .up, kx := m.1, ky := m.2 }
              s.contactEvent c .up sup pt =
                put H.1 (if H.2 = .joined then .free else .bound { b with last := some m, upOwed := true })) ∧
            ∀ l, b.last = some l →
              let H := fun t : State =>
                t.handTouch b.owner { contact := c, zone := b.zone, kind := .up, kx := l.1, ky := l.2 }
              (b.upOwed = true → s.contactEvent c .down sup pt =
                if (H s).2 = .joined then fresh (put (H s).1 .free) else (H s).1.overrun b.owner) ∧
              (b.upOwed = false → b.visible = true → s.contactEvent c .down sup pt =
                if (H s).2 = .joined then fresh (put (H s).1 .free)
                else (put (H s).1 (.bound { b with upOwed := true })).contactEvent c .down sup pt)

/-- Sections 8.3, 6.7, 7.8 (R130-R132, R100, R121): the six cases of an insertion into a touch queue, what counts an
overrun, the placing of the lowest owed UP, and the release and loss of a contact. -/
def Obligations.TouchQueueInsertion : Prop :=
  (∀ (q : List TouchEntry) (e : TouchEntry), q.length ≤ 4 →
      (∀ a x b, q = a ++ x :: b → e.kind = .move → x.kind = .move → x.contact = e.contact →
          (∀ y ∈ b, y.contact ≠ e.contact) →
          insertTouch q e = (a ++ { x with kx := e.kx, ky := e.ky } :: b, .joined, false)) ∧
        ((e.kind = .move → ∀ a x b, q = a ++ x :: b → x.contact = e.contact → (∀ y ∈ b, y.contact ≠ e.contact) →
            x.kind ≠ .move) →
          (q.length < 4 → insertTouch q e = (q ++ [e], .joined, false)) ∧
          (q.length = 4 → e.kind = .move → insertTouch q e = (q, .discarded, true)) ∧
          (∀ a x b, q.length = 4 → e.kind ≠ .move → q = a ++ x :: b → x.kind = .move → (∀ y ∈ b, y.kind ≠ .move) →
            insertTouch q e = (a ++ b ++ [e], .joined, true)) ∧
          (q.length = 4 → e.kind = .down → (∀ y ∈ q, y.kind ≠ .move) → insertTouch q e = (q, .discarded, true)) ∧
          (q.length = 4 → e.kind = .up → (∀ y ∈ q, y.kind ≠ .move) → insertTouch q e = (q, .owed, true)))) ∧
    (∀ (s : State) (k : KioskId) (e : TouchEntry),
      let r := insertTouch (s.kiosk k).touch e
      let T := s.setKiosk k { s.kiosk k with touch := r.1 }
      (s.handTouch k e).2 = r.2.1 ∧ (s.handTouch k e).1 = if r.2.2 then T.overrun k else T) ∧
    (∀ (s : State) (k : KioskId),
      s.overrun k = (s.setKiosk k { s.kiosk k with causes := (s.kiosk k).causes ||| 0x80#8 }).raise .touchOverrun) ∧
    (∀ (s : State) (k : KioskId) (c : ContactIx) (b : Binding) (l : Nat × Nat), (s.kiosk k).touch.length = 3 →
      s.contact c = .bound b → b.upOwed = true → b.owner = k → b.last = some l →
      (∀ n b', n < c → s.contact n = .bound b' → b'.owner = k → b'.upOwed = false) →
      s.placeOwed k allContacts = (s.setKiosk k { s.kiosk k with
        touch := (s.kiosk k).touch ++ [{ contact := c, zone := b.zone, kind := .up, kx := l.1, ky := l.2 }] }).setContact
          c .free) ∧
    (∀ (s : State) (c : ContactIx),
      (s.contact c = .free → s.releaseContact c = s) ∧
        (s.contact c = .unzoned → s.releaseContact c = s.setContact c .free) ∧
        ∀ b, s.contact c = .bound b →
          (b.upOwed = true → s.releaseContact c = s) ∧
            (b.upOwed = false → b.visible = false → s.releaseContact c = s.setContact c .free) ∧
            ∀ l, b.upOwed = false → b.visible = true → b.last = some l →
              let H := s.handTouch b.owner { contact := c, zone := b.zone, kind := .up, kx := l.1, ky := l.2 }
              s.releaseContact c = H.1.setContact c (if H.2 = .joined then .free else .bound { b with upOwed := true })) ∧
    ∀ (s : State) (k : KioskId) (c : ContactIx),
      (s.loseOwner k).contact c =
        match s.contact c with
        | .free => .free
        | .unzoned => .unzoned
        | .bound b =>
          if b.owner = k then (if b.upOwed then .free else .bound { b with visible := false }) else .bound b

/-- The frame of the device side: no line or timer event of a device port changes a table entry's written fields, the
spool record, the settings store, the notice port, or of a kiosk port anything but its queues and its causes. Fifteen of
them leave every byte of the spool; a character received changes at most the byte that R39 and R51 give: the next of the
tail block of the ACTIVE scan job, or the first of the block at the head of the free list. -/
def Obligations.DeviceSideFrame : Prop :=
  (∀ (s : State) (d : DeviceId) (data : Byte) (a b : Bool),
    ∀ c ∈ ([.atnLineChange d a, .atnBlankingExpiry d, .faultLimitExpiry d, .rdyChange d a, .characterSent d,
        .deviceBreakEnd d, .underrunTimeoutExpiry d, .deviceCharReceived d data a b, .firstByteTimeoutExpiry d,
        .endGapReached d, .flushEnd d, .pollIntervalExpiry d, .replyTimeoutExpiry d, .replyIdleLimit d, .settlingEnd d,
        .deviceLineReturnToMark d] : List Instr),
      ∃ t, exec c s = .next t ∧ t.routes = s.routes ∧ t.zones = s.zones ∧ t.spoolRecord = s.spoolRecord ∧
        t.store = s.store ∧ t.starting = s.starting ∧ t.noticePort = s.noticePort ∧ t.noticeMask = s.noticeMask ∧
        t.pending = s.pending ∧ t.freeIndex = s.freeIndex ∧
        (∀ e, (t.device e).record = (s.device e).record) ∧
        (∀ p, ∃ pr m cl w, t.panel p = { s.panel p with presence := pr, missRun := m, clamps := cl, causes := w }) ∧
        (∀ k, ∃ q tq w, t.kiosk k = { s.kiosk k with control := q, touch := tq, causes := w } ∧
          q.filter ControlEntry.isReply = (s.kiosk k).control.filter ControlEntry.isReply) ∧
        ∀ f : Flag, f.isIn s.flags = true → f.isIn t.flags = true) ∧
    (∀ (s : State) (d : DeviceId) (a : Bool),
      ∀ c ∈ ([.atnLineChange d a, .atnBlankingExpiry d, .faultLimitExpiry d, .rdyChange d a, .characterSent d,
          .deviceBreakEnd d, .underrunTimeoutExpiry d, .firstByteTimeoutExpiry d, .endGapReached d, .flushEnd d,
          .pollIntervalExpiry d, .replyTimeoutExpiry d, .replyIdleLimit d, .settlingEnd d,
          .deviceLineReturnToMark d] : List Instr),
        ∃ t, exec c s = .next t ∧ ∀ b m, t.readBlock b m = s.readBlock b m) ∧
    ∀ (s : State) (d : DeviceId) (data : Byte) (a b : Bool), MemoryInv s →
      let place : Option (BlockId × Nat) := ((s.activeJob d).bind s.job).bind fun j =>
        if j.allocation = [] ∨ 128 ≤ j.tailFill then s.free.head?.map fun x => (x, 0)
        else j.allocation.getLast?.map fun x => (x, j.tailFill)
      ∃ t, exec (.deviceCharReceived d data a b) s = .next t ∧
        ∀ x m, m < 128 → place ≠ some (x, m) → t.readBlock x m = s.readBlock x m

end
end

