-- ==== Sys2Proof/Laws/State.lean ====
section
/-! SUPPORT. What each update of State leaves as it was, field by field, and what a table entry reads as after a write. -/

namespace Sys2Proof.Machine

section setKiosk_laws

variable (s : State) (k : KioskId) (p : KioskPort)

@[simp] theorem setKiosk_devices : (s.setKiosk k p).devices = s.devices := rfl
@[simp] theorem setKiosk_jobs : (s.setKiosk k p).jobs = s.jobs := rfl
@[simp] theorem setKiosk_routes : (s.setKiosk k p).routes = s.routes := rfl
@[simp] theorem setKiosk_panels : (s.setKiosk k p).panels = s.panels := rfl
@[simp] theorem setKiosk_zones : (s.setKiosk k p).zones = s.zones := rfl
@[simp] theorem setKiosk_contacts : (s.setKiosk k p).contacts = s.contacts := rfl
@[simp] theorem setKiosk_free : (s.setKiosk k p).free = s.free := rfl
@[simp] theorem setKiosk_mem : (s.setKiosk k p).mem = s.mem := rfl
@[simp] theorem setKiosk_tight : (s.setKiosk k p).tight = s.tight := rfl
@[simp] theorem setKiosk_grantPointer : (s.setKiosk k p).grantPointer = s.grantPointer := rfl
@[simp] theorem setKiosk_spoolRecord : (s.setKiosk k p).spoolRecord = s.spoolRecord := rfl
@[simp] theorem setKiosk_flags : (s.setKiosk k p).flags = s.flags := rfl
@[simp] theorem setKiosk_noticeMask : (s.setKiosk k p).noticeMask = s.noticeMask := rfl
@[simp] theorem setKiosk_noticePort : (s.setKiosk k p).noticePort = s.noticePort := rfl
@[simp] theorem setKiosk_store : (s.setKiosk k p).store = s.store := rfl
@[simp] theorem setKiosk_starting : (s.setKiosk k p).starting = s.starting := rfl
@[simp] theorem setKiosk_pending : (s.setKiosk k p).pending = s.pending := rfl
@[simp] theorem setKiosk_freeIndex : (s.setKiosk k p).freeIndex = s.freeIndex := rfl
@[simp] theorem setKiosk_device (n : DeviceId) : (s.setKiosk k p).device n = s.device n := rfl
@[simp] theorem setKiosk_job (n : JobId) : (s.setKiosk k p).job n = s.job n := rfl
@[simp] theorem setKiosk_route (n : RouteId) : (s.setKiosk k p).route n = s.route n := rfl
@[simp] theorem setKiosk_panel (n : PanelId) : (s.setKiosk k p).panel n = s.panel n := rfl
@[simp] theorem setKiosk_zone (n : ZoneId) : (s.setKiosk k p).zone n = s.zone n := rfl
@[simp] theorem setKiosk_contact (n : ContactIx) : (s.setKiosk k p).contact n = s.contact n := rfl

end setKiosk_laws

section setDevice_laws

variable (s : State) (d : DeviceId) (p : DevicePort)

@[simp] theorem setDevice_kiosks : (s.setDevice d p).kiosks = s.kiosks := rfl
@[simp] theorem setDevice_jobs : (s.setDevice d p).jobs = s.jobs := rfl
@[simp] theorem setDevice_routes : (s.setDevice d p).routes = s.routes := rfl
@[simp] theorem setDevice_panels : (s.setDevice d p).panels = s.panels := rfl
@[simp] theorem setDevice_zones : (s.setDevice d p).zones = s.zones := rfl
@[simp] theorem setDevice_contacts : (s.setDevice d p).contacts = s.contacts := rfl
@[simp] theorem setDevice_free : (s.setDevice d p).free = s.free := rfl
@[simp] theorem setDevice_mem : (s.setDevice d p).mem = s.mem := rfl
@[simp] theorem setDevice_tight : (s.setDevice d p).tight = s.tight := rfl
@[simp] theorem setDevice_grantPointer : (s.setDevice d p).grantPointer = s.grantPointer := rfl
@[simp] theorem setDevice_spoolRecord : (s.setDevice d p).spoolRecord = s.spoolRecord := rfl
@[simp] theorem setDevice_flags : (s.setDevice d p).flags = s.flags := rfl
@[simp] theorem setDevice_noticeMask : (s.setDevice d p).noticeMask = s.noticeMask := rfl
@[simp] theorem setDevice_noticePort : (s.setDevice d p).noticePort = s.noticePort := rfl
@[simp] theorem setDevice_store : (s.setDevice d p).store = s.store := rfl
@[simp] theorem setDevice_starting : (s.setDevice d p).starting = s.starting := rfl
@[simp] theorem setDevice_pending : (s.setDevice d p).pending = s.pending := rfl
@[simp] theorem setDevice_freeIndex : (s.setDevice d p).freeIndex = s.freeIndex := rfl
@[simp] theorem setDevice_kiosk (n : KioskId) : (s.setDevice d p).kiosk n = s.kiosk n := rfl
@[simp] theorem setDevice_job (n : JobId) : (s.setDevice d p).job n = s.job n := rfl
@[simp] theorem setDevice_route (n : RouteId) : (s.setDevice d p).route n = s.route n := rfl
@[simp] theorem setDevice_panel (n : PanelId) : (s.setDevice d p).panel n = s.panel n := rfl
@[simp] theorem setDevice_zone (n : ZoneId) : (s.setDevice d p).zone n = s.zone n := rfl
@[simp] theorem setDevice_contact (n : ContactIx) : (s.setDevice d p).contact n = s.contact n := rfl

end setDevice_laws

section setJob_laws

variable (s : State) (i : JobId) (j : Option Job)

@[simp] theorem setJob_kiosks : (s.setJob i j).kiosks = s.kiosks := rfl
@[simp] theorem setJob_devices : (s.setJob i j).devices = s.devices := rfl
@[simp] theorem setJob_routes : (s.setJob i j).routes = s.routes := rfl
@[simp] theorem setJob_panels : (s.setJob i j).panels = s.panels := rfl
@[simp] theorem setJob_zones : (s.setJob i j).zones = s.zones := rfl
@[simp] theorem setJob_contacts : (s.setJob i j).contacts = s.contacts := rfl
@[simp] theorem setJob_free : (s.setJob i j).free = s.free := rfl
@[simp] theorem setJob_mem : (s.setJob i j).mem = s.mem := rfl
@[simp] theorem setJob_tight : (s.setJob i j).tight = s.tight := rfl
@[simp] theorem setJob_grantPointer : (s.setJob i j).grantPointer = s.grantPointer := rfl
@[simp] theorem setJob_spoolRecord : (s.setJob i j).spoolRecord = s.spoolRecord := rfl
@[simp] theorem setJob_flags : (s.setJob i j).flags = s.flags := rfl
@[simp] theorem setJob_noticeMask : (s.setJob i j).noticeMask = s.noticeMask := rfl
@[simp] theorem setJob_noticePort : (s.setJob i j).noticePort = s.noticePort := rfl
@[simp] theorem setJob_store : (s.setJob i j).store = s.store := rfl
@[simp] theorem setJob_starting : (s.setJob i j).starting = s.starting := rfl
@[simp] theorem setJob_pending : (s.setJob i j).pending = s.pending := rfl
@[simp] theorem setJob_freeIndex : (s.setJob i j).freeIndex = s.freeIndex := rfl
@[simp] theorem setJob_kiosk (n : KioskId) : (s.setJob i j).kiosk n = s.kiosk n := rfl
@[simp] theorem setJob_device (n : DeviceId) : (s.setJob i j).device n = s.device n := rfl
@[simp] theorem setJob_route (n : RouteId) : (s.setJob i j).route n = s.route n := rfl
@[simp] theorem setJob_panel (n : PanelId) : (s.setJob i j).panel n = s.panel n := rfl
@[simp] theorem setJob_zone (n : ZoneId) : (s.setJob i j).zone n = s.zone n := rfl
@[simp] theorem setJob_contact (n : ContactIx) : (s.setJob i j).contact n = s.contact n := rfl

end setJob_laws

section setRoute_laws

variable (s : State) (e : RouteId) (x : RouteEntry)

@[simp] theorem setRoute_kiosks : (s.setRoute e x).kiosks = s.kiosks := rfl
@[simp] theorem setRoute_devices : (s.setRoute e x).devices = s.devices := rfl
@[simp] theorem setRoute_jobs : (s.setRoute e x).jobs = s.jobs := rfl
@[simp] theorem setRoute_panels : (s.setRoute e x).panels = s.panels := rfl
@[simp] theorem setRoute_zones : (s.setRoute e x).zones = s.zones := rfl
@[simp] theorem setRoute_contacts : (s.setRoute e x).contacts = s.contacts := rfl
@[simp] theorem setRoute_free : (s.setRoute e x).free = s.free := rfl
@[simp] theorem setRoute_mem : (s.setRoute e x).mem = s.mem := rfl
@[simp] theorem setRoute_tight : (s.setRoute e x).tight = s.tight := rfl
@[simp] theorem setRoute_grantPointer : (s.setRoute e x).grantPointer = s.grantPointer := rfl
@[simp] theorem setRoute_spoolRecord : (s.setRoute e x).spoolRecord = s.spoolRecord := rfl
@[simp] theorem setRoute_flags : (s.setRoute e x).flags = s.flags := rfl
@[simp] theorem setRoute_noticeMask : (s.setRoute e x).noticeMask = s.noticeMask := rfl
@[simp] theorem setRoute_noticePort : (s.setRoute e x).noticePort = s.noticePort := rfl
@[simp] theorem setRoute_store : (s.setRoute e x).store = s.store := rfl
@[simp] theorem setRoute_starting : (s.setRoute e x).starting = s.starting := rfl
@[simp] theorem setRoute_pending : (s.setRoute e x).pending = s.pending := rfl
@[simp] theorem setRoute_freeIndex : (s.setRoute e x).freeIndex = s.freeIndex := rfl
@[simp] theorem setRoute_kiosk (n : KioskId) : (s.setRoute e x).kiosk n = s.kiosk n := rfl
@[simp] theorem setRoute_device (n : DeviceId) : (s.setRoute e x).device n = s.device n := rfl
@[simp] theorem setRoute_job (n : JobId) : (s.setRoute e x).job n = s.job n := rfl
@[simp] theorem setRoute_panel (n : PanelId) : (s.setRoute e x).panel n = s.panel n := rfl
@[simp] theorem setRoute_zone (n : ZoneId) : (s.setRoute e x).zone n = s.zone n := rfl
@[simp] theorem setRoute_contact (n : ContactIx) : (s.setRoute e x).contact n = s.contact n := rfl

end setRoute_laws

section setPanel_laws

variable (s : State) (p : PanelId) (x : Panel)

@[simp] theorem setPanel_kiosks : (s.setPanel p x).kiosks = s.kiosks := rfl
@[simp] theorem setPanel_devices : (s.setPanel p x).devices = s.devices := rfl
@[simp] theorem setPanel_jobs : (s.setPanel p x).jobs = s.jobs := rfl
@[simp] theorem setPanel_routes : (s.setPanel p x).routes = s.routes := rfl
@[simp] theorem setPanel_zones : (s.setPanel p x).zones = s.zones := rfl
@[simp] theorem setPanel_contacts : (s.setPanel p x).contacts = s.contacts := rfl
@[simp] theorem setPanel_free : (s.setPanel p x).free = s.free := rfl
@[simp] theorem setPanel_mem : (s.setPanel p x).mem = s.mem := rfl
@[simp] theorem setPanel_tight : (s.setPanel p x).tight = s.tight := rfl
@[simp] theorem setPanel_grantPointer : (s.setPanel p x).grantPointer = s.grantPointer := rfl
@[simp] theorem setPanel_spoolRecord : (s.setPanel p x).spoolRecord = s.spoolRecord := rfl
@[simp] theorem setPanel_flags : (s.setPanel p x).flags = s.flags := rfl
@[simp] theorem setPanel_noticeMask : (s.setPanel p x).noticeMask = s.noticeMask := rfl
@[simp] theorem setPanel_noticePort : (s.setPanel p x).noticePort = s.noticePort := rfl
@[simp] theorem setPanel_store : (s.setPanel p x).store = s.store := rfl
@[simp] theorem setPanel_starting : (s.setPanel p x).starting = s.starting := rfl
@[simp] theorem setPanel_pending : (s.setPanel p x).pending = s.pending := rfl
@[simp] theorem setPanel_freeIndex : (s.setPanel p x).freeIndex = s.freeIndex := rfl
@[simp] theorem setPanel_kiosk (n : KioskId) : (s.setPanel p x).kiosk n = s.kiosk n := rfl
@[simp] theorem setPanel_device (n : DeviceId) : (s.setPanel p x).device n = s.device n := rfl
@[simp] theorem setPanel_job (n : JobId) : (s.setPanel p x).job n = s.job n := rfl
@[simp] theorem setPanel_route (n : RouteId) : (s.setPanel p x).route n = s.route n := rfl
@[simp] theorem setPanel_zone (n : ZoneId) : (s.setPanel p x).zone n = s.zone n := rfl
@[simp] theorem setPanel_contact (n : ContactIx) : (s.setPanel p x).contact n = s.contact n := rfl

end setPanel_laws

section setZone_laws

variable (s : State) (z : ZoneId) (x : Zone)

@[simp] theorem setZone_kiosks : (s.setZone z x).kiosks = s.kiosks := rfl
@[simp] theorem setZone_devices : (s.setZone z x).devices = s.devices := rfl
@[simp] theorem setZone_jobs : (s.setZone z x).jobs = s.jobs := rfl
@[simp] theorem setZone_routes : (s.setZone z x).routes = s.routes := rfl
@[simp] theorem setZone_panels : (s.setZone z x).panels = s.panels := rfl
@[simp] theorem setZone_contacts : (s.setZone z x).contacts = s.contacts := rfl
@[simp] theorem setZone_free : (s.setZone z x).free = s.free := rfl
@[simp] theorem setZone_mem : (s.setZone z x).mem = s.mem := rfl
@[simp] theorem setZone_tight : (s.setZone z x).tight = s.tight := rfl
@[simp] theorem setZone_grantPointer : (s.setZone z x).grantPointer = s.grantPointer := rfl
@[simp] theorem setZone_spoolRecord : (s.setZone z x).spoolRecord = s.spoolRecord := rfl
@[simp] theorem setZone_flags : (s.setZone z x).flags = s.flags := rfl
@[simp] theorem setZone_noticeMask : (s.setZone z x).noticeMask = s.noticeMask := rfl
@[simp] theorem setZone_noticePort : (s.setZone z x).noticePort = s.noticePort := rfl
@[simp] theorem setZone_store : (s.setZone z x).store = s.store := rfl
@[simp] theorem setZone_starting : (s.setZone z x).starting = s.starting := rfl
@[simp] theorem setZone_pending : (s.setZone z x).pending = s.pending := rfl
@[simp] theorem setZone_freeIndex : (s.setZone z x).freeIndex = s.freeIndex := rfl
@[simp] theorem setZone_kiosk (n : KioskId) : (s.setZone z x).kiosk n = s.kiosk n := rfl
@[simp] theorem setZone_device (n : DeviceId) : (s.setZone z x).device n = s.device n := rfl
@[simp] theorem setZone_job (n : JobId) : (s.setZone z x).job n = s.job n := rfl
@[simp] theorem setZone_route (n : RouteId) : (s.setZone z x).route n = s.route n := rfl
@[simp] theorem setZone_panel (n : PanelId) : (s.setZone z x).panel n = s.panel n := rfl
@[simp] theorem setZone_contact (n : ContactIx) : (s.setZone z x).contact n = s.contact n := rfl

end setZone_laws

section setContact_laws

variable (s : State) (c : ContactIx) (x : Contact)

@[simp] theorem setContact_kiosks : (s.setContact c x).kiosks = s.kiosks := rfl
@[simp] theorem setContact_devices : (s.setContact c x).devices = s.devices := rfl
@[simp] theorem setContact_jobs : (s.setContact c x).jobs = s.jobs := rfl
@[simp] theorem setContact_routes : (s.setContact c x).routes = s.routes := rfl
@[simp] theorem setContact_panels : (s.setContact c x).panels = s.panels := rfl
@[simp] theorem setContact_zones : (s.setContact c x).zones = s.zones := rfl
@[simp] theorem setContact_free : (s.setContact c x).free = s.free := rfl
@[simp] theorem setContact_mem : (s.setContact c x).mem = s.mem := rfl
@[simp] theorem setContact_tight : (s.setContact c x).tight = s.tight := rfl
@[simp] theorem setContact_grantPointer : (s.setContact c x).grantPointer = s.grantPointer := rfl
@[simp] theorem setContact_spoolRecord : (s.setContact c x).spoolRecord = s.spoolRecord := rfl
@[simp] theorem setContact_flags : (s.setContact c x).flags = s.flags := rfl
@[simp] theorem setContact_noticeMask : (s.setContact c x).noticeMask = s.noticeMask := rfl
@[simp] theorem setContact_noticePort : (s.setContact c x).noticePort = s.noticePort := rfl
@[simp] theorem setContact_store : (s.setContact c x).store = s.store := rfl
@[simp] theorem setContact_starting : (s.setContact c x).starting = s.starting := rfl
@[simp] theorem setContact_pending : (s.setContact c x).pending = s.pending := rfl
@[simp] theorem setContact_freeIndex : (s.setContact c x).freeIndex = s.freeIndex := rfl
@[simp] theorem setContact_kiosk (n : KioskId) : (s.setContact c x).kiosk n = s.kiosk n := rfl
@[simp] theorem setContact_device (n : DeviceId) : (s.setContact c x).device n = s.device n := rfl
@[simp] theorem setContact_job (n : JobId) : (s.setContact c x).job n = s.job n := rfl
@[simp] theorem setContact_route (n : RouteId) : (s.setContact c x).route n = s.route n := rfl
@[simp] theorem setContact_panel (n : PanelId) : (s.setContact c x).panel n = s.panel n := rfl
@[simp] theorem setContact_zone (n : ZoneId) : (s.setContact c x).zone n = s.zone n := rfl

end setContact_laws

section setFree_laws

variable (s : State) (l : List BlockId)

@[simp] theorem setFree_kiosks : (s.setFree l).kiosks = s.kiosks := rfl
@[simp] theorem setFree_devices : (s.setFree l).devices = s.devices := rfl
@[simp] theorem setFree_jobs : (s.setFree l).jobs = s.jobs := rfl
@[simp] theorem setFree_routes : (s.setFree l).routes = s.routes := rfl
@[simp] theorem setFree_panels : (s.setFree l).panels = s.panels := rfl
@[simp] theorem setFree_zones : (s.setFree l).zones = s.zones := rfl
@[simp] theorem setFree_contacts : (s.setFree l).contacts = s.contacts := rfl
@[simp] theorem setFree_mem : (s.setFree l).mem = s.mem := rfl
@[simp] theorem setFree_tight : (s.setFree l).tight = s.tight := rfl
@[simp] theorem setFree_grantPointer : (s.setFree l).grantPointer = s.grantPointer := rfl
@[simp] theorem setFree_spoolRecord : (s.setFree l).spoolRecord = s.spoolRecord := rfl
@[simp] theorem setFree_flags : (s.setFree l).flags = s.flags := rfl
@[simp] theorem setFree_noticeMask : (s.setFree l).noticeMask = s.noticeMask := rfl
@[simp] theorem setFree_noticePort : (s.setFree l).noticePort = s.noticePort := rfl
@[simp] theorem setFree_store : (s.setFree l).store = s.store := rfl
@[simp] theorem setFree_starting : (s.setFree l).starting = s.starting := rfl
@[simp] theorem setFree_pending : (s.setFree l).pending = s.pending := rfl
@[simp] theorem setFree_freeIndex : (s.setFree l).freeIndex = s.freeIndex := rfl
@[simp] theorem setFree_kiosk (n : KioskId) : (s.setFree l).kiosk n = s.kiosk n := rfl
@[simp] theorem setFree_device (n : DeviceId) : (s.setFree l).device n = s.device n := rfl
@[simp] theorem setFree_job (n : JobId) : (s.setFree l).job n = s.job n := rfl
@[simp] theorem setFree_route (n : RouteId) : (s.setFree l).route n = s.route n := rfl
@[simp] theorem setFree_panel (n : PanelId) : (s.setFree l).panel n = s.panel n := rfl
@[simp] theorem setFree_zone (n : ZoneId) : (s.setFree l).zone n = s.zone n := rfl
@[simp] theorem setFree_contact (n : ContactIx) : (s.setFree l).contact n = s.contact n := rfl

end setFree_laws

section setMem_laws

variable (s : State) (m : List Host.Cell)

@[simp] theorem setMem_kiosks : (s.setMem m).kiosks = s.kiosks := rfl
@[simp] theorem setMem_devices : (s.setMem m).devices = s.devices := rfl
@[simp] theorem setMem_jobs : (s.setMem m).jobs = s.jobs := rfl
@[simp] theorem setMem_routes : (s.setMem m).routes = s.routes := rfl
@[simp] theorem setMem_panels : (s.setMem m).panels = s.panels := rfl
@[simp] theorem setMem_zones : (s.setMem m).zones = s.zones := rfl
@[simp] theorem setMem_contacts : (s.setMem m).contacts = s.contacts := rfl
@[simp] theorem setMem_free : (s.setMem m).free = s.free := rfl
@[simp] theorem setMem_tight : (s.setMem m).tight = s.tight := rfl
@[simp] theorem setMem_grantPointer : (s.setMem m).grantPointer = s.grantPointer := rfl
@[simp] theorem setMem_spoolRecord : (s.setMem m).spoolRecord = s.spoolRecord := rfl
@[simp] theorem setMem_flags : (s.setMem m).flags = s.flags := rfl
@[simp] theorem setMem_noticeMask : (s.setMem m).noticeMask = s.noticeMask := rfl
@[simp] theorem setMem_noticePort : (s.setMem m).noticePort = s.noticePort := rfl
@[simp] theorem setMem_store : (s.setMem m).store = s.store := rfl
@[simp] theorem setMem_starting : (s.setMem m).starting = s.starting := rfl
@[simp] theorem setMem_pending : (s.setMem m).pending = s.pending := rfl
@[simp] theorem setMem_freeIndex : (s.setMem m).freeIndex = s.freeIndex := rfl
@[simp] theorem setMem_kiosk (n : KioskId) : (s.setMem m).kiosk n = s.kiosk n := rfl
@[simp] theorem setMem_device (n : DeviceId) : (s.setMem m).device n = s.device n := rfl
@[simp] theorem setMem_job (n : JobId) : (s.setMem m).job n = s.job n := rfl
@[simp] theorem setMem_route (n : RouteId) : (s.setMem m).route n = s.route n := rfl
@[simp] theorem setMem_panel (n : PanelId) : (s.setMem m).panel n = s.panel n := rfl
@[simp] theorem setMem_zone (n : ZoneId) : (s.setMem m).zone n = s.zone n := rfl
@[simp] theorem setMem_contact (n : ContactIx) : (s.setMem m).contact n = s.contact n := rfl

end setMem_laws

section setTight_laws

variable (s : State) (b : Bool)

@[simp] theorem setTight_kiosks : (s.setTight b).kiosks = s.kiosks := rfl
@[simp] theorem setTight_devices : (s.setTight b).devices = s.devices := rfl
@[simp] theorem setTight_jobs : (s.setTight b).jobs = s.jobs := rfl
@[simp] theorem setTight_routes : (s.setTight b).routes = s.routes := rfl
@[simp] theorem setTight_panels : (s.setTight b).panels = s.panels := rfl
@[simp] theorem setTight_zones : (s.setTight b).zones = s.zones := rfl
@[simp] theorem setTight_contacts : (s.setTight b).contacts = s.contacts := rfl
@[simp] theorem setTight_free : (s.setTight b).free = s.free := rfl
@[simp] theorem setTight_mem : (s.setTight b).mem = s.mem := rfl
@[simp] theorem setTight_grantPointer : (s.setTight b).grantPointer = s.grantPointer := rfl
@[simp] theorem setTight_spoolRecord : (s.setTight b).spoolRecord = s.spoolRecord := rfl
@[simp] theorem setTight_flags : (s.setTight b).flags = s.flags := rfl
@[simp] theorem setTight_noticeMask : (s.setTight b).noticeMask = s.noticeMask := rfl
@[simp] theorem setTight_noticePort : (s.setTight b).noticePort = s.noticePort := rfl
@[simp] theorem setTight_store : (s.setTight b).store = s.store := rfl
@[simp] theorem setTight_starting : (s.setTight b).starting = s.starting := rfl
@[simp] theorem setTight_pending : (s.setTight b).pending = s.pending := rfl
@[simp] theorem setTight_freeIndex : (s.setTight b).freeIndex = s.freeIndex := rfl
@[simp] theorem setTight_kiosk (n : KioskId) : (s.setTight b).kiosk n = s.kiosk n := rfl
@[simp] theorem setTight_device (n : DeviceId) : (s.setTight b).device n = s.device n := rfl
@[simp] theorem setTight_job (n : JobId) : (s.setTight b).job n = s.job n := rfl
@[simp] theorem setTight_route (n : RouteId) : (s.setTight b).route n = s.route n := rfl
@[simp] theorem setTight_panel (n : PanelId) : (s.setTight b).panel n = s.panel n := rfl
@[simp] theorem setTight_zone (n : ZoneId) : (s.setTight b).zone n = s.zone n := rfl
@[simp] theorem setTight_contact (n : ContactIx) : (s.setTight b).contact n = s.contact n := rfl

end setTight_laws

section setGrantPointer_laws

variable (s : State) (i : JobId)

@[simp] theorem setGrantPointer_kiosks : (s.setGrantPointer i).kiosks = s.kiosks := rfl
@[simp] theorem setGrantPointer_devices : (s.setGrantPointer i).devices = s.devices := rfl
@[simp] theorem setGrantPointer_jobs : (s.setGrantPointer i).jobs = s.jobs := rfl
@[simp] theorem setGrantPointer_routes : (s.setGrantPointer i).routes = s.routes := rfl
@[simp] theorem setGrantPointer_panels : (s.setGrantPointer i).panels = s.panels := rfl
@[simp] theorem setGrantPointer_zones : (s.setGrantPointer i).zones = s.zones := rfl
@[simp] theorem setGrantPointer_contacts : (s.setGrantPointer i).contacts = s.contacts := rfl
@[simp] theorem setGrantPointer_free : (s.setGrantPointer i).free = s.free := rfl
@[simp] theorem setGrantPointer_mem : (s.setGrantPointer i).mem = s.mem := rfl
@[simp] theorem setGrantPointer_tight : (s.setGrantPointer i).tight = s.tight := rfl
@[simp] theorem setGrantPointer_spoolRecord : (s.setGrantPointer i).spoolRecord = s.spoolRecord := rfl
@[simp] theorem setGrantPointer_flags : (s.setGrantPointer i).flags = s.flags := rfl
@[simp] theorem setGrantPointer_noticeMask : (s.setGrantPointer i).noticeMask = s.noticeMask := rfl
@[simp] theorem setGrantPointer_noticePort : (s.setGrantPointer i).noticePort = s.noticePort := rfl
@[simp] theorem setGrantPointer_store : (s.setGrantPointer i).store = s.store := rfl
@[simp] theorem setGrantPointer_starting : (s.setGrantPointer i).starting = s.starting := rfl
@[simp] theorem setGrantPointer_pending : (s.setGrantPointer i).pending = s.pending := rfl
@[simp] theorem setGrantPointer_freeIndex : (s.setGrantPointer i).freeIndex = s.freeIndex := rfl
@[simp] theorem setGrantPointer_kiosk (n : KioskId) : (s.setGrantPointer i).kiosk n = s.kiosk n := rfl
@[simp] theorem setGrantPointer_device (n : DeviceId) : (s.setGrantPointer i).device n = s.device n := rfl
@[simp] theorem setGrantPointer_job (n : JobId) : (s.setGrantPointer i).job n = s.job n := rfl
@[simp] theorem setGrantPointer_route (n : RouteId) : (s.setGrantPointer i).route n = s.route n := rfl
@[simp] theorem setGrantPointer_panel (n : PanelId) : (s.setGrantPointer i).panel n = s.panel n := rfl
@[simp] theorem setGrantPointer_zone (n : ZoneId) : (s.setGrantPointer i).zone n = s.zone n := rfl
@[simp] theorem setGrantPointer_contact (n : ContactIx) : (s.setGrantPointer i).contact n = s.contact n := rfl

end setGrantPointer_laws

section setSpoolRecord_laws

variable (s : State) (x : SpoolRecord)

@[simp] theorem setSpoolRecord_kiosks : (s.setSpoolRecord x).kiosks = s.kiosks := rfl
@[simp] theorem setSpoolRecord_devices : (s.setSpoolRecord x).devices = s.devices := rfl
@[simp] theorem setSpoolRecord_jobs : (s.setSpoolRecord x).jobs = s.jobs := rfl
@[simp] theorem setSpoolRecord_routes : (s.setSpoolRecord x).routes = s.routes := rfl
@[simp] theorem setSpoolRecord_panels : (s.setSpoolRecord x).panels = s.panels := rfl
@[simp] theorem setSpoolRecord_zones : (s.setSpoolRecord x).zones = s.zones := rfl
@[simp] theorem setSpoolRecord_contacts : (s.setSpoolRecord x).contacts = s.contacts := rfl
@[simp] theorem setSpoolRecord_free : (s.setSpoolRecord x).free = s.free := rfl
@[simp] theorem setSpoolRecord_mem : (s.setSpoolRecord x).mem = s.mem := rfl
@[simp] theorem setSpoolRecord_tight : (s.setSpoolRecord x).tight = s.tight := rfl
@[simp] theorem setSpoolRecord_grantPointer : (s.setSpoolRecord x).grantPointer = s.grantPointer := rfl
@[simp] theorem setSpoolRecord_flags : (s.setSpoolRecord x).flags = s.flags := rfl
@[simp] theorem setSpoolRecord_noticeMask : (s.setSpoolRecord x).noticeMask = s.noticeMask := rfl
@[simp] theorem setSpoolRecord_noticePort : (s.setSpoolRecord x).noticePort = s.noticePort := rfl
@[simp] theorem setSpoolRecord_store : (s.setSpoolRecord x).store = s.store := rfl
@[simp] theorem setSpoolRecord_starting : (s.setSpoolRecord x).starting = s.starting := rfl
@[simp] theorem setSpoolRecord_pending : (s.setSpoolRecord x).pending = s.pending := rfl
@[simp] theorem setSpoolRecord_freeIndex : (s.setSpoolRecord x).freeIndex = s.freeIndex := rfl
@[simp] theorem setSpoolRecord_kiosk (n : KioskId) : (s.setSpoolRecord x).kiosk n = s.kiosk n := rfl
@[simp] theorem setSpoolRecord_device (n : DeviceId) : (s.setSpoolRecord x).device n = s.device n := rfl
@[simp] theorem setSpoolRecord_job (n : JobId) : (s.setSpoolRecord x).job n = s.job n := rfl
@[simp] theorem setSpoolRecord_route (n : RouteId) : (s.setSpoolRecord x).route n = s.route n := rfl
@[simp] theorem setSpoolRecord_panel (n : PanelId) : (s.setSpoolRecord x).panel n = s.panel n := rfl
@[simp] theorem setSpoolRecord_zone (n : ZoneId) : (s.setSpoolRecord x).zone n = s.zone n := rfl
@[simp] theorem setSpoolRecord_contact (n : ContactIx) : (s.setSpoolRecord x).contact n = s.contact n := rfl

end setSpoolRecord_laws

section setFlags_laws

variable (s : State) (w : FlagSet)

@[simp] theorem setFlags_kiosks : (s.setFlags w).kiosks = s.kiosks := rfl
@[simp] theorem setFlags_devices : (s.setFlags w).devices = s.devices := rfl
@[simp] theorem setFlags_jobs : (s.setFlags w).jobs = s.jobs := rfl
@[simp] theorem setFlags_routes : (s.setFlags w).routes = s.routes := rfl
@[simp] theorem setFlags_panels : (s.setFlags w).panels = s.panels := rfl
@[simp] theorem setFlags_zones : (s.setFlags w).zones = s.zones := rfl
@[simp] theorem setFlags_contacts : (s.setFlags w).contacts = s.contacts := rfl
@[simp] theorem setFlags_free : (s.setFlags w).free = s.free := rfl
@[simp] theorem setFlags_mem : (s.setFlags w).mem = s.mem := rfl
@[simp] theorem setFlags_tight : (s.setFlags w).tight = s.tight := rfl
@[simp] theorem setFlags_grantPointer : (s.setFlags w).grantPointer = s.grantPointer := rfl
@[simp] theorem setFlags_spoolRecord : (s.setFlags w).spoolRecord = s.spoolRecord := rfl
@[simp] theorem setFlags_noticeMask : (s.setFlags w).noticeMask = s.noticeMask := rfl
@[simp] theorem setFlags_noticePort : (s.setFlags w).noticePort = s.noticePort := rfl
@[simp] theorem setFlags_store : (s.setFlags w).store = s.store := rfl
@[simp] theorem setFlags_starting : (s.setFlags w).starting = s.starting := rfl
@[simp] theorem setFlags_pending : (s.setFlags w).pending = s.pending := rfl
@[simp] theorem setFlags_freeIndex : (s.setFlags w).freeIndex = s.freeIndex := rfl
@[simp] theorem setFlags_kiosk (n : KioskId) : (s.setFlags w).kiosk n = s.kiosk n := rfl
@[simp] theorem setFlags_device (n : DeviceId) : (s.setFlags w).device n = s.device n := rfl
@[simp] theorem setFlags_job (n : JobId) : (s.setFlags w).job n = s.job n := rfl
@[simp] theorem setFlags_route (n : RouteId) : (s.setFlags w).route n = s.route n := rfl
@[simp] theorem setFlags_panel (n : PanelId) : (s.setFlags w).panel n = s.panel n := rfl
@[simp] theorem setFlags_zone (n : ZoneId) : (s.setFlags w).zone n = s.zone n := rfl
@[simp] theorem setFlags_contact (n : ContactIx) : (s.setFlags w).contact n = s.contact n := rfl

end setFlags_laws

section setNotice_laws

variable (s : State) (q : Option KioskId) (w : FlagSet)

@[simp] theorem setNotice_kiosks : (s.setNotice q w).kiosks = s.kiosks := rfl
@[simp] theorem setNotice_devices : (s.setNotice q w).devices = s.devices := rfl
@[simp] theorem setNotice_jobs : (s.setNotice q w).jobs = s.jobs := rfl
@[simp] theorem setNotice_routes : (s.setNotice q w).routes = s.routes := rfl
@[simp] theorem setNotice_panels : (s.setNotice q w).panels = s.panels := rfl
@[simp] theorem setNotice_zones : (s.setNotice q w).zones = s.zones := rfl
@[simp] theorem setNotice_contacts : (s.setNotice q w).contacts = s.contacts := rfl
@[simp] theorem setNotice_free : (s.setNotice q w).free = s.free := rfl
@[simp] theorem setNotice_mem : (s.setNotice q w).mem = s.mem := rfl
@[simp] theorem setNotice_tight : (s.setNotice q w).tight = s.tight := rfl
@[simp] theorem setNotice_grantPointer : (s.setNotice q w).grantPointer = s.grantPointer := rfl
@[simp] theorem setNotice_spoolRecord : (s.setNotice q w).spoolRecord = s.spoolRecord := rfl
@[simp] theorem setNotice_flags : (s.setNotice q w).flags = s.flags := rfl
@[simp] theorem setNotice_store : (s.setNotice q w).store = s.store := rfl
@[simp] theorem setNotice_starting : (s.setNotice q w).starting = s.starting := rfl
@[simp] theorem setNotice_pending : (s.setNotice q w).pending = s.pending := rfl
@[simp] theorem setNotice_freeIndex : (s.setNotice q w).freeIndex = s.freeIndex := rfl
@[simp] theorem setNotice_kiosk (n : KioskId) : (s.setNotice q w).kiosk n = s.kiosk n := rfl
@[simp] theorem setNotice_device (n : DeviceId) : (s.setNotice q w).device n = s.device n := rfl
@[simp] theorem setNotice_job (n : JobId) : (s.setNotice q w).job n = s.job n := rfl
@[simp] theorem setNotice_route (n : RouteId) : (s.setNotice q w).route n = s.route n := rfl
@[simp] theorem setNotice_panel (n : PanelId) : (s.setNotice q w).panel n = s.panel n := rfl
@[simp] theorem setNotice_zone (n : ZoneId) : (s.setNotice q w).zone n = s.zone n := rfl
@[simp] theorem setNotice_contact (n : ContactIx) : (s.setNotice q w).contact n = s.contact n := rfl

end setNotice_laws

section setStore_laws

variable (s : State) (x : Store)

@[simp] theorem setStore_kiosks : (s.setStore x).kiosks = s.kiosks := rfl
@[simp] theorem setStore_devices : (s.setStore x).devices = s.devices := rfl
@[simp] theorem setStore_jobs : (s.setStore x).jobs = s.jobs := rfl
@[simp] theorem setStore_routes : (s.setStore x).routes = s.routes := rfl
@[simp] theorem setStore_panels : (s.setStore x).panels = s.panels := rfl
@[simp] theorem setStore_zones : (s.setStore x).zones = s.zones := rfl
@[simp] theorem setStore_contacts : (s.setStore x).contacts = s.contacts := rfl
@[simp] theorem setStore_free : (s.setStore x).free = s.free := rfl
@[simp] theorem setStore_mem : (s.setStore x).mem = s.mem := rfl
@[simp] theorem setStore_tight : (s.setStore x).tight = s.tight := rfl
@[simp] theorem setStore_grantPointer : (s.setStore x).grantPointer = s.grantPointer := rfl
@[simp] theorem setStore_spoolRecord : (s.setStore x).spoolRecord = s.spoolRecord := rfl
@[simp] theorem setStore_flags : (s.setStore x).flags = s.flags := rfl
@[simp] theorem setStore_noticeMask : (s.setStore x).noticeMask = s.noticeMask := rfl
@[simp] theorem setStore_noticePort : (s.setStore x).noticePort = s.noticePort := rfl
@[simp] theorem setStore_starting : (s.setStore x).starting = s.starting := rfl
@[simp] theorem setStore_pending : (s.setStore x).pending = s.pending := rfl
@[simp] theorem setStore_freeIndex : (s.setStore x).freeIndex = s.freeIndex := rfl
@[simp] theorem setStore_kiosk (n : KioskId) : (s.setStore x).kiosk n = s.kiosk n := rfl
@[simp] theorem setStore_device (n : DeviceId) : (s.setStore x).device n = s.device n := rfl
@[simp] theorem setStore_job (n : JobId) : (s.setStore x).job n = s.job n := rfl
@[simp] theorem setStore_route (n : RouteId) : (s.setStore x).route n = s.route n := rfl
@[simp] theorem setStore_panel (n : PanelId) : (s.setStore x).panel n = s.panel n := rfl
@[simp] theorem setStore_zone (n : ZoneId) : (s.setStore x).zone n = s.zone n := rfl
@[simp] theorem setStore_contact (n : ContactIx) : (s.setStore x).contact n = s.contact n := rfl

end setStore_laws

section advanceFree_laws

variable (s : State) (n : Nat)

@[simp] theorem advanceFree_kiosks : (s.advanceFree n).kiosks = s.kiosks := rfl
@[simp] theorem advanceFree_devices : (s.advanceFree n).devices = s.devices := rfl
@[simp] theorem advanceFree_jobs : (s.advanceFree n).jobs = s.jobs := rfl
@[simp] theorem advanceFree_routes : (s.advanceFree n).routes = s.routes := rfl
@[simp] theorem advanceFree_panels : (s.advanceFree n).panels = s.panels := rfl
@[simp] theorem advanceFree_zones : (s.advanceFree n).zones = s.zones := rfl
@[simp] theorem advanceFree_contacts : (s.advanceFree n).contacts = s.contacts := rfl
@[simp] theorem advanceFree_free : (s.advanceFree n).free = s.free := rfl
@[simp] theorem advanceFree_mem : (s.advanceFree n).mem = s.mem := rfl
@[simp] theorem advanceFree_tight : (s.advanceFree n).tight = s.tight := rfl
@[simp] theorem advanceFree_grantPointer : (s.advanceFree n).grantPointer = s.grantPointer := rfl
@[simp] theorem advanceFree_spoolRecord : (s.advanceFree n).spoolRecord = s.spoolRecord := rfl
@[simp] theorem advanceFree_flags : (s.advanceFree n).flags = s.flags := rfl
@[simp] theorem advanceFree_noticeMask : (s.advanceFree n).noticeMask = s.noticeMask := rfl
@[simp] theorem advanceFree_noticePort : (s.advanceFree n).noticePort = s.noticePort := rfl
@[simp] theorem advanceFree_store : (s.advanceFree n).store = s.store := rfl
@[simp] theorem advanceFree_starting : (s.advanceFree n).starting = s.starting := rfl
@[simp] theorem advanceFree_pending : (s.advanceFree n).pending = s.pending := rfl
@[simp] theorem advanceFree_kiosk (n : KioskId) : (s.advanceFree n).kiosk n = s.kiosk n := rfl
@[simp] theorem advanceFree_device (n : DeviceId) : (s.advanceFree n).device n = s.device n := rfl
@[simp] theorem advanceFree_job (n : JobId) : (s.advanceFree n).job n = s.job n := rfl
@[simp] theorem advanceFree_route (n : RouteId) : (s.advanceFree n).route n = s.route n := rfl
@[simp] theorem advanceFree_panel (n : PanelId) : (s.advanceFree n).panel n = s.panel n := rfl
@[simp] theorem advanceFree_zone (n : ZoneId) : (s.advanceFree n).zone n = s.zone n := rfl
@[simp] theorem advanceFree_contact (n : ContactIx) : (s.advanceFree n).contact n = s.contact n := rfl

end advanceFree_laws

section modKiosk_laws

variable (s : State) (k : KioskId) (f : KioskPort → KioskPort)

@[simp] theorem modKiosk_devices : (s.modKiosk k f).devices = s.devices := rfl
@[simp] theorem modKiosk_jobs : (s.modKiosk k f).jobs = s.jobs := rfl
@[simp] theorem modKiosk_routes : (s.modKiosk k f).routes = s.routes := rfl
@[simp] theorem modKiosk_panels : (s.modKiosk k f).panels = s.panels := rfl
@[simp] theorem modKiosk_zones : (s.modKiosk k f).zones = s.zones := rfl
@[simp] theorem modKiosk_contacts : (s.modKiosk k f).contacts = s.contacts := rfl
@[simp] theorem modKiosk_free : (s.modKiosk k f).free = s.free := rfl
@[simp] theorem modKiosk_mem : (s.modKiosk k f).mem = s.mem := rfl
@[simp] theorem modKiosk_tight : (s.modKiosk k f).tight = s.tight := rfl
@[simp] theorem modKiosk_grantPointer : (s.modKiosk k f).grantPointer = s.grantPointer := rfl
@[simp] theorem modKiosk_spoolRecord : (s.modKiosk k f).spoolRecord = s.spoolRecord := rfl
@[simp] theorem modKiosk_flags : (s.modKiosk k f).flags = s.flags := rfl
@[simp] theorem modKiosk_noticeMask : (s.modKiosk k f).noticeMask = s.noticeMask := rfl
@[simp] theorem modKiosk_noticePort : (s.modKiosk k f).noticePort = s.noticePort := rfl
@[simp] theorem modKiosk_store : (s.modKiosk k f).store = s.store := rfl
@[simp] theorem modKiosk_starting : (s.modKiosk k f).starting = s.starting := rfl
@[simp] theorem modKiosk_pending : (s.modKiosk k f).pending = s.pending := rfl
@[simp] theorem modKiosk_freeIndex : (s.modKiosk k f).freeIndex = s.freeIndex := rfl
@[simp] theorem modKiosk_device (n : DeviceId) : (s.modKiosk k f).device n = s.device n := rfl
@[simp] theorem modKiosk_job (n : JobId) : (s.modKiosk k f).job n = s.job n := rfl
@[simp] theorem modKiosk_route (n : RouteId) : (s.modKiosk k f).route n = s.route n := rfl
@[simp] theorem modKiosk_panel (n : PanelId) : (s.modKiosk k f).panel n = s.panel n := rfl
@[simp] theorem modKiosk_zone (n : ZoneId) : (s.modKiosk k f).zone n = s.zone n := rfl
@[simp] theorem modKiosk_contact (n : ContactIx) : (s.modKiosk k f).contact n = s.contact n := rfl

end modKiosk_laws

section modDevice_laws

variable (s : State) (d : DeviceId) (f : DevicePort → DevicePort)

@[simp] theorem modDevice_kiosks : (s.modDevice d f).kiosks = s.kiosks := rfl
@[simp] theorem modDevice_jobs : (s.modDevice d f).jobs = s.jobs := rfl
@[simp] theorem modDevice_routes : (s.modDevice d f).routes = s.routes := rfl
@[simp] theorem modDevice_panels : (s.modDevice d f).panels = s.panels := rfl
@[simp] theorem modDevice_zones : (s.modDevice d f).zones = s.zones := rfl
@[simp] theorem modDevice_contacts : (s.modDevice d f).contacts = s.contacts := rfl
@[simp] theorem modDevice_free : (s.modDevice d f).free = s.free := rfl
@[simp] theorem modDevice_mem : (s.modDevice d f).mem = s.mem := rfl
@[simp] theorem modDevice_tight : (s.modDevice d f).tight = s.tight := rfl
@[simp] theorem modDevice_grantPointer : (s.modDevice d f).grantPointer = s.grantPointer := rfl
@[simp] theorem modDevice_spoolRecord : (s.modDevice d f).spoolRecord = s.spoolRecord := rfl
@[simp] theorem modDevice_flags : (s.modDevice d f).flags = s.flags := rfl
@[simp] theorem modDevice_noticeMask : (s.modDevice d f).noticeMask = s.noticeMask := rfl
@[simp] theorem modDevice_noticePort : (s.modDevice d f).noticePort = s.noticePort := rfl
@[simp] theorem modDevice_store : (s.modDevice d f).store = s.store := rfl
@[simp] theorem modDevice_starting : (s.modDevice d f).starting = s.starting := rfl
@[simp] theorem modDevice_pending : (s.modDevice d f).pending = s.pending := rfl
@[simp] theorem modDevice_freeIndex : (s.modDevice d f).freeIndex = s.freeIndex := rfl
@[simp] theorem modDevice_kiosk (n : KioskId) : (s.modDevice d f).kiosk n = s.kiosk n := rfl
@[simp] theorem modDevice_job (n : JobId) : (s.modDevice d f).job n = s.job n := rfl
@[simp] theorem modDevice_route (n : RouteId) : (s.modDevice d f).route n = s.route n := rfl
@[simp] theorem modDevice_panel (n : PanelId) : (s.modDevice d f).panel n = s.panel n := rfl
@[simp] theorem modDevice_zone (n : ZoneId) : (s.modDevice d f).zone n = s.zone n := rfl
@[simp] theorem modDevice_contact (n : ContactIx) : (s.modDevice d f).contact n = s.contact n := rfl

end modDevice_laws

section modPanel_laws

variable (s : State) (p : PanelId) (f : Panel → Panel)

@[simp] theorem modPanel_kiosks : (s.modPanel p f).kiosks = s.kiosks := rfl
@[simp] theorem modPanel_devices : (s.modPanel p f).devices = s.devices := rfl
@[simp] theorem modPanel_jobs : (s.modPanel p f).jobs = s.jobs := rfl
@[simp] theorem modPanel_routes : (s.modPanel p f).routes = s.routes := rfl
@[simp] theorem modPanel_zones : (s.modPanel p f).zones = s.zones := rfl
@[simp] theorem modPanel_contacts : (s.modPanel p f).contacts = s.contacts := rfl
@[simp] theorem modPanel_free : (s.modPanel p f).free = s.free := rfl
@[simp] theorem modPanel_mem : (s.modPanel p f).mem = s.mem := rfl
@[simp] theorem modPanel_tight : (s.modPanel p f).tight = s.tight := rfl
@[simp] theorem modPanel_grantPointer : (s.modPanel p f).grantPointer = s.grantPointer := rfl
@[simp] theorem modPanel_spoolRecord : (s.modPanel p f).spoolRecord = s.spoolRecord := rfl
@[simp] theorem modPanel_flags : (s.modPanel p f).flags = s.flags := rfl
@[simp] theorem modPanel_noticeMask : (s.modPanel p f).noticeMask = s.noticeMask := rfl
@[simp] theorem modPanel_noticePort : (s.modPanel p f).noticePort = s.noticePort := rfl
@[simp] theorem modPanel_store : (s.modPanel p f).store = s.store := rfl
@[simp] theorem modPanel_starting : (s.modPanel p f).starting = s.starting := rfl
@[simp] theorem modPanel_pending : (s.modPanel p f).pending = s.pending := rfl
@[simp] theorem modPanel_freeIndex : (s.modPanel p f).freeIndex = s.freeIndex := rfl
@[simp] theorem modPanel_kiosk (n : KioskId) : (s.modPanel p f).kiosk n = s.kiosk n := rfl
@[simp] theorem modPanel_device (n : DeviceId) : (s.modPanel p f).device n = s.device n := rfl
@[simp] theorem modPanel_job (n : JobId) : (s.modPanel p f).job n = s.job n := rfl
@[simp] theorem modPanel_route (n : RouteId) : (s.modPanel p f).route n = s.route n := rfl
@[simp] theorem modPanel_zone (n : ZoneId) : (s.modPanel p f).zone n = s.zone n := rfl
@[simp] theorem modPanel_contact (n : ContactIx) : (s.modPanel p f).contact n = s.contact n := rfl

end modPanel_laws

/-! ### Reads of what was written -/

theorem setKiosk_kiosk (s : State) (n m : KioskId) (x : KioskPort) :
    (s.setKiosk n x).kiosk m = if m = n then x else s.kiosk m := by
  by_cases h : m = n
  · subst h; simp [State.setKiosk, State.kiosk]
  · rw [if_neg h]
    have hne : n.val ≠ m.val := fun e => h (Fin.ext e.symm)
    simp [State.setKiosk, State.kiosk, hne]

@[simp] theorem setKiosk_kiosk_self (s : State) (n : KioskId) (x : KioskPort) : (s.setKiosk n x).kiosk n = x := by
  rw [setKiosk_kiosk, if_pos rfl]

theorem setKiosk_kiosk_of_ne (s : State) (n m : KioskId) (x : KioskPort) (h : m ≠ n) : (s.setKiosk n x).kiosk m = s.kiosk m := by
  rw [setKiosk_kiosk, if_neg h]

theorem setDevice_device (s : State) (n m : DeviceId) (x : DevicePort) :
    (s.setDevice n x).device m = if m = n then x else s.device m := by
  by_cases h : m = n
  · subst h; simp [State.setDevice, State.device]
  · rw [if_neg h]
    have hne : n.val ≠ m.val := fun e => h (Fin.ext e.symm)
    simp [State.setDevice, State.device, hne]

@[simp] theorem setDevice_device_self (s : State) (n : DeviceId) (x : DevicePort) : (s.setDevice n x).device n = x := by
  rw [setDevice_device, if_pos rfl]

theorem setDevice_device_of_ne (s : State) (n m : DeviceId) (x : DevicePort) (h : m ≠ n) : (s.setDevice n x).device m = s.device m := by
  rw [setDevice_device, if_neg h]

theorem setJob_job (s : State) (n m : JobId) (x : Option Job) :
    (s.setJob n x).job m = if m = n then x else s.job m := by
  by_cases h : m = n
  · subst h; simp [State.setJob, State.job]
  · rw [if_neg h]
    have hne : n.val ≠ m.val := fun e => h (Fin.ext e.symm)
    simp [State.setJob, State.job, hne]

@[simp] theorem setJob_job_self (s : State) (n : JobId) (x : Option Job) : (s.setJob n x).job n = x := by
  rw [setJob_job, if_pos rfl]

theorem setJob_job_of_ne (s : State) (n m : JobId) (x : Option Job) (h : m ≠ n) : (s.setJob n x).job m = s.job m := by
  rw [setJob_job, if_neg h]

theorem setRoute_route (s : State) (n m : RouteId) (x : RouteEntry) :
    (s.setRoute n x).route m = if m = n then x else s.route m := by
  by_cases h : m = n
  · subst h; simp [State.setRoute, State.route]
  · rw [if_neg h]
    have hne : n.val ≠ m.val := fun e => h (Fin.ext e.symm)
    simp [State.setRoute, State.route, hne]

@[simp] theorem setRoute_route_self (s : State) (n : RouteId) (x : RouteEntry) : (s.setRoute n x).route n = x := by
  rw [setRoute_route, if_pos rfl]

theorem setRoute_route_of_ne (s : State) (n m : RouteId) (x : RouteEntry) (h : m ≠ n) : (s.setRoute n x).route m = s.route m := by
  rw [setRoute_route, if_neg h]

theorem setPanel_panel (s : State) (n m : PanelId) (x : Panel) :
    (s.setPanel n x).panel m = if m = n then x else s.panel m := by
  by_cases h : m = n
  · subst h; simp [State.setPanel, State.panel]
  · rw [if_neg h]
    have hne : n.val ≠ m.val := fun e => h (Fin.ext e.symm)
    simp [State.setPanel, State.panel, hne]

@[simp] theorem setPanel_panel_self (s : State) (n : PanelId) (x : Panel) : (s.setPanel n x).panel n = x := by
  rw [setPanel_panel, if_pos rfl]

theorem setPanel_panel_of_ne (s : State) (n m : PanelId) (x : Panel) (h : m ≠ n) : (s.setPanel n x).panel m = s.panel m := by
  rw [setPanel_panel, if_neg h]

theorem setZone_zone (s : State) (n m : ZoneId) (x : Zone) :
    (s.setZone n x).zone m = if m = n then x else s.zone m := by
  by_cases h : m = n
  · subst h; simp [State.setZone, State.zone]
  · rw [if_neg h]
    have hne : n.val ≠ m.val := fun e => h (Fin.ext e.symm)
    simp [State.setZone, State.zone, hne]

@[simp] theorem setZone_zone_self (s : State) (n : ZoneId) (x : Zone) : (s.setZone n x).zone n = x := by
  rw [setZone_zone, if_pos rfl]

theorem setZone_zone_of_ne (s : State) (n m : ZoneId) (x : Zone) (h : m ≠ n) : (s.setZone n x).zone m = s.zone m := by
  rw [setZone_zone, if_neg h]

theorem setContact_contact (s : State) (n m : ContactIx) (x : Contact) :
    (s.setContact n x).contact m = if m = n then x else s.contact m := by
  by_cases h : m = n
  · subst h; simp [State.setContact, State.contact]
  · rw [if_neg h]
    have hne : n.val ≠ m.val := fun e => h (Fin.ext e.symm)
    simp [State.setContact, State.contact, hne]

@[simp] theorem setContact_contact_self (s : State) (n : ContactIx) (x : Contact) : (s.setContact n x).contact n = x := by
  rw [setContact_contact, if_pos rfl]

theorem setContact_contact_of_ne (s : State) (n m : ContactIx) (x : Contact) (h : m ≠ n) : (s.setContact n x).contact m = s.contact m := by
  rw [setContact_contact, if_neg h]

theorem modKiosk_kiosk (s : State) (n m : KioskId) (f : KioskPort → KioskPort) :
    (s.modKiosk n f).kiosk m = if m = n then f (s.kiosk n) else s.kiosk m := setKiosk_kiosk s n m _

@[simp] theorem modKiosk_kiosk_self (s : State) (n : KioskId) (f : KioskPort → KioskPort) : (s.modKiosk n f).kiosk n = f (s.kiosk n) :=
  setKiosk_kiosk_self s n _

theorem modKiosk_kiosk_of_ne (s : State) (n m : KioskId) (f : KioskPort → KioskPort) (h : m ≠ n) :
    (s.modKiosk n f).kiosk m = s.kiosk m := setKiosk_kiosk_of_ne s n m _ h

theorem modDevice_device (s : State) (n m : DeviceId) (f : DevicePort → DevicePort) :
    (s.modDevice n f).device m = if m = n then f (s.device n) else s.device m := setDevice_device s n m _

@[simp] theorem modDevice_device_self (s : State) (n : DeviceId) (f : DevicePort → DevicePort) : (s.modDevice n f).device n = f (s.device n) :=
  setDevice_device_self s n _

theorem modDevice_device_of_ne (s : State) (n m : DeviceId) (f : DevicePort → DevicePort) (h : m ≠ n) :
    (s.modDevice n f).device m = s.device m := setDevice_device_of_ne s n m _ h

theorem modPanel_panel (s : State) (n m : PanelId) (f : Panel → Panel) :
    (s.modPanel n f).panel m = if m = n then f (s.panel n) else s.panel m := setPanel_panel s n m _

@[simp] theorem modPanel_panel_self (s : State) (n : PanelId) (f : Panel → Panel) : (s.modPanel n f).panel n = f (s.panel n) :=
  setPanel_panel_self s n _

theorem modPanel_panel_of_ne (s : State) (n m : PanelId) (f : Panel → Panel) (h : m ≠ n) :
    (s.modPanel n f).panel m = s.panel m := setPanel_panel_of_ne s n m _ h

/-- Two tables with equal entries are equal. -/
theorem table_ext {α : Type} {n : Nat} {v w : Vector α n} (h : ∀ i : Fin n, v[i] = w[i]) : v = w := by
  apply Vector.ext
  intro i hi
  exact h ⟨i, hi⟩

/-- An entry of a table changed as a whole. -/
@[simp] theorem mapTable_get {α β : Type} {n : Nat} (f : α → β) (v : Vector α n) (i : Fin n) :
    (mapTable f v)[i] = f v[i] := by
  show (mapTable f v)[i.val] = f v[i.val]
  simp [mapTable]

/-- Two states are equal when every field is. -/
theorem State.ext_fields {s t : State} (h1 : t.kiosks = s.kiosks) (h2 : t.devices = s.devices) (h3 : t.jobs = s.jobs)
    (h4 : t.routes = s.routes) (h5 : t.panels = s.panels) (h6 : t.zones = s.zones) (h7 : t.contacts = s.contacts)
    (h8 : t.free = s.free) (h9 : t.mem = s.mem) (h10 : t.tight = s.tight) (h11 : t.grantPointer = s.grantPointer)
    (h12 : t.spoolRecord = s.spoolRecord) (h13 : t.flags = s.flags) (h14 : t.noticeMask = s.noticeMask)
    (h15 : t.noticePort = s.noticePort) (h16 : t.store = s.store) (h17 : t.starting = s.starting)
    (h18 : t.pending = s.pending) (h19 : t.freeIndex = s.freeIndex) : t = s := by
  cases s; cases t; simp_all

theorem setKiosk_setKiosk (s : State) (k : KioskId) (p q : KioskPort) :
    (s.setKiosk k p).setKiosk k q = s.setKiosk k q := by simp [State.setKiosk]

theorem setDevice_setDevice (s : State) (d : DeviceId) (p q : DevicePort) :
    (s.setDevice d p).setDevice d q = s.setDevice d q := by simp [State.setDevice]

theorem setJob_setJob (s : State) (i : JobId) (j k : Option Job) : (s.setJob i j).setJob i k = s.setJob i k := by
  simp [State.setJob]

theorem setKiosk_same (s : State) (k : KioskId) : s.setKiosk k (s.kiosk k) = s := by
  simp [State.setKiosk, State.kiosk]

theorem setDevice_same (s : State) (d : DeviceId) : s.setDevice d (s.device d) = s := by
  simp [State.setDevice, State.device]

theorem modKiosk_modKiosk (s : State) (k : KioskId) (f g : KioskPort → KioskPort) :
    (s.modKiosk k f).modKiosk k g = s.modKiosk k fun p => g (f p) := by
  simp only [State.modKiosk, setKiosk_kiosk_self, setKiosk_setKiosk]

theorem modDevice_modDevice (s : State) (d : DeviceId) (f g : DevicePort → DevicePort) :
    (s.modDevice d f).modDevice d g = s.modDevice d fun p => g (f p) := by
  simp only [State.modDevice, setDevice_device_self, setDevice_setDevice]

end Sys2Proof.Machine
end

