-- ==== Sys2Proof/Laws/Moves.lean ====
section
/-! SUPPORT. The moves: the ways in which the shared operations below the commands change State. An operation's lemma
says once that it is a row of moves, with the blocks it holds in hand; an invariant that every move keeps is then kept
by every operation. -/

namespace Sys2Proof.Machine

/-- Which parts of State an operation may change, besides the device engines, the flags and the control queues. -/
inductive Kind where
  /-- Job records, device queues, free list, tight-spool condition, GRANT_POINTER. -/
  | jobs
  /-- The spool's bytes. -/
  | bytes
  /-- Contacts, live panel fields, touch queues. -/
  | touch

/-- R125: from one control queue to another no slot gains a CREDIT or a JOB_END, and the NOTICE stays single. -/
def NoNewEntries (a b : List ControlEntry) : Prop :=
  (noticesIn a ≤ 1 → noticesIn b ≤ 1) ∧
    ∀ slot, creditsIn b slot ≤ creditsIn a slot ∧ jobEndsIn b slot ≤ jobEndsIn a slot

/-- A kiosk port changed in its queues and cause set alone, its REPLY entries kept. -/
def KioskPort.QueuesOf (K : Kind → Prop) (p q : KioskPort) : Prop :=
  ∃ c t w, q = { p with control := c, touch := t, causes := w } ∧
    c.filter ControlEntry.isReply = p.control.filter ControlEntry.isReply ∧
    (p.touch.length ≤ Config.touchCap → t.length ≤ Config.touchCap) ∧ (¬ K .touch → t = p.touch ∧ w = p.causes)

/-- The same, with no new CREDIT and JOB_END (R125). -/
def KioskPort.SideOf (K : Kind → Prop) (p q : KioskPort) : Prop :=
  p.QueuesOf K q ∧ NoNewEntries p.control q.control

/-- A device port changed in its engine and service state alone. -/
def DevicePort.SideOf (p q : DevicePort) : Prop :=
  q.record = p.record ∧ q.queue = p.queue ∧ q.atnPin = p.atnPin ∧ q.rdyPin = p.rdyPin ∧ q.lineHeld = p.lineHeld

/-- A panel changed in its live fields alone, inside their ranges. -/
def Panel.SideOf (p q : Panel) : Prop :=
  ∃ pr m c w, q = { p with presence := pr, missRun := m, clamps := c, causes := w } ∧
    (p.missRun ≤ 8 → m ≤ 8) ∧ (p.clamps ≤ 65535 → c ≤ 65535)

/-- A job that stays the same job in the same queue, its counts in order if they were. -/
def Job.SideOf (j k : Job) : Prop :=
  k.kind = j.kind ∧ k.device = j.device ∧ k.channel = j.channel ∧ k.priority = j.priority ∧
    (k.state = .active ↔ j.state = .active) ∧ (j.ok → k.ok)

/-- R5, steps 1 and 2: the job's record and its device side as its ending leaves them. -/
def State.dropped (s : State) (i : JobId) (j : Job) (reason : EndReason) : State :=
  (s.modDevice j.device (DevicePort.dropJob i j reason)).setJob i none

/-- One move. The list holds the blocks that are in hand, neither on the free list nor in a chain. A CREDIT is handed
for a live job alone; a JOB_END is handed as its job's record is freed (`finish`), and an ending without one is `drop`.
-/
inductive Move (K : Kind → Prop) : List BlockId × State → List BlockId × State → Prop where
  | kiosk {l s} (k : KioskId) (p : KioskPort) (h : (s.kiosk k).SideOf K p) : Move K (l, s) (l, s.setKiosk k p)
  | device {l s} (d : DeviceId) (p : DevicePort) (h : (s.device d).SideOf p) : Move K (l, s) (l, s.setDevice d p)
  | flag {l s} (f : Flag) : Move K (l, s) (l, s.setFlags (s.flags ||| f.mask))
  | tight {l s} (hj : K .jobs) (b : Bool) : Move K (l, s) (l, s.setTight b)
  | pointer {l s} (hj : K .jobs) (i : JobId) : Move K (l, s) (l, s.setGrantPointer i)
  | job {l l' s} (hj : K .jobs) (i : JobId) (j k : Job) (live : s.job i = some j) (side : j.SideOf k)
      (blocks : (l ++ j.allocation).Perm (l' ++ k.allocation)) : Move K (l, s) (l', s.setJob i (some k))
  | free {l l' s} (hj : K .jobs) (f : List BlockId) (blocks : (l ++ s.free).Perm (l' ++ f)) :
      Move K (l, s) (l', s.setFree f)
  | drop {l s} (hj : K .jobs) (i : JobId) (j : Job) (reason : EndReason) (live : s.job i = some j) :
      Move K (l, s) (j.allocation ++ l, s.dropped i j reason)
  | finish {l s} (hj : K .jobs) (i : JobId) (j : Job) (reason : EndReason) (count : Nat) (live : s.job i = some j) :
      Move K (l, s) (j.allocation ++ l, (s.dropped i j reason).handJobEnd (jobKiosk i) j.channel (jobSlot i) reason
        count j.lineErrors)
  | credit {l s} (hj : K .jobs) (i : JobId) (j : Job) (ch : Byte) (limit : Nat) (live : s.job i = some j) :
      Move K (l, s) (l, s.handCredit (jobKiosk i) ch (jobSlot i) limit)
  | start {l s} (hj : K .jobs) (d : DeviceId) (i : JobId) (may : s.mayStart d = true) (queued : i ∈ (s.device d).queue)
      (ready : ∃ j, s.job i = some j ∧ j.state = .ready) : Move K (l, s) (l, s.activate i)
  | byte {l s} (hb : K .bytes) (b : BlockId) (n : Nat) (v : Byte) : Move K (l, s) (l, s.writeBlock b n v)
  | contact {l s} (ht : K .touch) (c : ContactIx) (r : Contact) : Move K (l, s) (l, s.setContact c r)
  | panel {l s} (ht : K .touch) (p : PanelId) (q : Panel) (h : (s.panel p).SideOf q) :
      Move K (l, s) (l, s.setPanel p q)

/-- A row of moves. -/
def Moves (K : Kind → Prop) (l : List BlockId) (s : State) (l' : List BlockId) (s' : State) : Prop :=
  Relation.ReflTransGen (Move K) (l, s) (l', s')

namespace Moves

variable {K : Kind → Prop} {l l' l'' : List BlockId} {s s' s'' : State}

theorem refl : Moves K l s l s := Relation.ReflTransGen.refl

theorem of (h : Move K (l, s) (l', s')) : Moves K l s l' s' := Relation.ReflTransGen.single h

theorem trans (h : Moves K l s l' s') (g : Moves K l' s' l'' s'') : Moves K l s l'' s'' :=
  Relation.ReflTransGen.trans h g

/-- What every move keeps, a row of moves keeps. -/
theorem keeps {P : List BlockId → State → Prop} (step : ∀ l s l' s', Move K (l, s) (l', s') → P l s → P l' s')
    (h : Moves K l s l' s') (start : P l s) : P l' s' := by
  have key : ∀ a b : List BlockId × State, Relation.ReflTransGen (Move K) a b → P a.1 a.2 → P b.1 b.2 := by
    intro a b r
    induction r with
    | refl => exact id
    | tail _ last ih => exact fun x => step _ _ _ _ last (ih x)
  exact key _ _ h start

theorem device (d : DeviceId) (f : DevicePort → DevicePort) (h : ∀ p : DevicePort, p.SideOf (f p)) :
    Moves K l s l (s.modDevice d f) := of (.device d _ (h _))

theorem kiosk (k : KioskId) (f : KioskPort → KioskPort) (h : ∀ p : KioskPort, p.SideOf K (f p)) :
    Moves K l s l (s.modKiosk k f) := of (.kiosk k _ (h _))

theorem panel (ht : K .touch) (p : PanelId) (f : Panel → Panel) (h : ∀ p : Panel, p.SideOf (f p)) :
    Moves K l s l (s.modPanel p f) := of (.panel ht p _ (h _))

end Moves

/-- R39: a row of moves that writes no byte leaves the spool's bytes. -/
theorem moves_mem {K : Kind → Prop} {l l' : List BlockId} {s s' : State} (none : ¬ K .bytes) (m : Moves K l s l' s') :
    s'.mem = s.mem := by
  refine Moves.keeps (P := fun _ t => t.mem = s.mem) ?_ m rfl
  intro l1 t l2 t' move h
  cases move with
  | byte hb => exact absurd hb none
  | start hj d i may queued ready =>
    unfold State.activate
    split <;> exact h
  | _ => exact h

theorem NoNewEntries.rfl {a : List ControlEntry} : NoNewEntries a a := ⟨id, fun _ => ⟨Nat.le_refl _, Nat.le_refl _⟩⟩

theorem NoNewEntries.sublist {a b : List ControlEntry} (h : b.Sublist a) : NoNewEntries a b :=
  ⟨fun n => (h.countP_le).trans n, fun _ => ⟨h.countP_le, h.countP_le⟩⟩

/-- A REPLY adds to no count but its own. -/
theorem NoNewEntries.reply (a : List ControlEntry) (ch tag kind : Byte) (st : Status) (f : List Byte) (n : AfterSend) :
    NoNewEntries a (a ++ [.reply ch tag kind st f n]) := by
  simp [NoNewEntries, noticesIn, creditsIn, jobEndsIn, ControlEntry.isNotice, ControlEntry.isCreditFor,
    ControlEntry.isJobEndFor]

/-- R129: a NOTICE joins where none waits. -/
theorem NoNewEntries.notice {a : List ControlEntry} (h : a.any ControlEntry.isNotice = false) :
    NoNewEntries a (a ++ [.notice]) := by
  have none : a.countP ControlEntry.isNotice = 0 := by
    rw [List.countP_eq_zero]
    simpa using h
  simp [NoNewEntries, noticesIn, creditsIn, jobEndsIn, ControlEntry.isNotice, ControlEntry.isCreditFor,
    ControlEntry.isJobEndFor, List.countP_append, none]

/-- A control queue changed alone, its REPLY entries kept. -/
theorem KioskPort.QueuesOf.control {K : Kind → Prop} {p : KioskPort} {c : List ControlEntry}
    (h : c.filter ControlEntry.isReply = p.control.filter ControlEntry.isReply) :
    p.QueuesOf K { p with control := c } := ⟨c, p.touch, p.causes, rfl, h, id, fun _ => ⟨rfl, rfl⟩⟩

theorem KioskPort.QueuesOf.rfl {K : Kind → Prop} {p : KioskPort} : p.QueuesOf K p := by
  cases p
  exact .control (by rfl)

theorem KioskPort.SideOf.rfl {K : Kind → Prop} {p : KioskPort} : p.SideOf K p := ⟨.rfl, .rfl⟩

theorem DevicePort.SideOf.rfl {p : DevicePort} : p.SideOf p := ⟨by rfl, by rfl, by rfl, by rfl, by rfl⟩

theorem Job.SideOf.rfl {j : Job} : j.SideOf j := ⟨by rfl, by rfl, by rfl, by rfl, Iff.rfl, id⟩

section
variable {K : Kind → Prop} (l : List BlockId) (s : State)

/-! ### Control queues and flags -/

theorem filter_not_reply {c : List ControlEntry} {f : ControlEntry → Bool}
    (h : ∀ e, e.isReply = true → f e = true) :
    (c.filter f).filter ControlEntry.isReply = c.filter ControlEntry.isReply := by
  rw [List.filter_filter]
  congr 1
  funext e
  cases he : e.isReply
  · simp
  · simp [h e he]

theorem updateCredit_replies (slot : SlotId) (limit : Nat) (c : List ControlEntry) :
    (updateCredit slot limit c).filter ControlEntry.isReply = c.filter ControlEntry.isReply := by
  induction c with
  | nil => rfl
  | cons e rest ih =>
    cases e with
    | credit ch t lim =>
      unfold updateCredit
      split <;> simp [ControlEntry.isReply, ih]
    | reply => simp [updateCredit, List.filter_cons, ih]
    | jobEnd => simp [updateCredit, ControlEntry.isReply, ih]
    | notice => simp [updateCredit, ControlEntry.isReply, ih]

/-- R127: an update in place keeps every entry's kind and slot. -/
theorem updateCredit_countP (slot : SlotId) (limit : Nat) (f : ControlEntry → Bool)
    (same : ∀ ch t l, f (.credit ch t limit) = f (.credit ch t l)) (c : List ControlEntry) :
    (updateCredit slot limit c).countP f = c.countP f := by
  induction c with
  | nil => rfl
  | cons e rest ih =>
    cases e with
    | credit ch t lim =>
      unfold updateCredit
      split
      · rw [List.countP_cons, List.countP_cons, same ch t lim]
      · rw [List.countP_cons, List.countP_cons, ih]
    | reply => rw [updateCredit, List.countP_cons, List.countP_cons, ih]; simp
    | jobEnd => rw [updateCredit, List.countP_cons, List.countP_cons, ih]; simp
    | notice => rw [updateCredit, List.countP_cons, List.countP_cons, ih]; simp

/-- R127: what a CREDIT changes of its port. -/
theorem handCredit_queues (k n : KioskId) (ch : Byte) (slot : SlotId) (limit : Nat) :
    (s.kiosk n).QueuesOf K ((s.handCredit k ch slot limit).kiosk n) := by
  unfold State.handCredit
  rw [modKiosk_kiosk]
  split
  · rename_i e
    subst e
    split
    · exact .control (updateCredit_replies slot limit _)
    · exact .control (by simp [List.filter_append, ControlEntry.isReply])
  · exact .rfl

/-- R128: what a JOB_END changes of its port. -/
theorem handJobEnd_queues (k n : KioskId) (ch : Byte) (slot : SlotId) (reason : EndReason) (count : Nat) (le : Bool) :
    (s.kiosk n).QueuesOf K ((s.handJobEnd k ch slot reason count le).kiosk n) := by
  unfold State.handJobEnd
  rw [modKiosk_kiosk]
  split
  · rename_i e
    subst e
    refine .control ?_
    rw [List.filter_append, filter_not_reply]
    · simp [ControlEntry.isReply]
    · intro e he; cases e <;> simp_all [ControlEntry.isReply, ControlEntry.isCreditFor]
  · exact .rfl

/-- R129: what a NOTICE changes of its port. -/
theorem handNotice_side (p : KioskPort) : p.SideOf K
    (if p.control.any ControlEntry.isNotice then p else { p with control := p.control ++ [.notice] }) := by
  split
  · exact .rfl
  · rename_i h
    exact ⟨.control (by simp [List.filter_append, ControlEntry.isReply]), .notice (by simpa using h)⟩

theorem handNotice_moves (k : KioskId) : Moves K l s l (s.handNotice k) := Moves.kiosk k _ handNotice_side

theorem raise_moves (f : Flag) : Moves K l s l (s.raise f) := by
  unfold State.raise
  split
  · exact .refl
  · refine .trans (.of (.flag f)) ?_
    dsimp only
    split
    · split
      · exact handNotice_moves l _ _
      · exact .refl
    · exact .refl

theorem latchDevice_moves (d : DeviceId) (c : DeviceCause) : Moves K l s l (s.latchDevice d c) :=
  Moves.device d _ fun _ => ⟨rfl, rfl, rfl, rfl, rfl⟩

/-! ### Spool -/

theorem evalTight_moves (hj : K .jobs) : Moves K l s l s.evalTight := by
  unfold State.evalTight
  split
  · split
    · refine .trans (.of (.tight hj false)) ?_
      dsimp only
      split
      · exact raise_moves l _ _
      · exact .refl
    · exact .refl
  · split
    · refine .trans (.of (.tight hj true)) ?_
      dsimp only
      split
      · exact raise_moves l _ _
      · exact .refl
    · exact .refl

theorem joinFree_moves (hj : K .jobs) (b : BlockId) : Moves K (b :: l) s l (s.joinFree b) :=
  .trans (.of (.free hj (s.free ++ [b]) (by
    rw [← List.append_assoc, List.cons_append]
    exact (List.perm_append_singleton b (l ++ s.free)).symm))) (evalTight_moves l _ hj)

theorem returnBlocks_moves (hj : K .jobs) (bs : List BlockId) : Moves K (bs ++ l) s l (s.returnBlocks bs) := by
  unfold State.returnBlocks
  induction bs generalizing s with
  | nil => exact .refl
  | cons b rest ih => exact .trans (joinFree_moves (rest ++ l) s hj b) (ih _)

theorem creditRise_moves (hj : K .jobs) (i : JobId) (j : Job) (live : s.job i = some j) (a b : Nat) (ch : Byte) :
    Moves K l s l (s.creditRise i a b ch) := by
  unfold State.creditRise
  split
  · exact .of (.credit hj i j ch b live)
  · exact .refl

/-! ### Grants, frees and scan allocations -/

/-- The fields that a move of blocks between a chain and the free list leaves alone, the counts in order. -/
theorem Job.sideOf_of {j k : Job} (h1 : k.kind = j.kind) (h2 : k.device = j.device) (h3 : k.channel = j.channel)
    (h4 : k.priority = j.priority) (h5 : k.state = j.state) (h6 : j.ok → k.ok) : j.SideOf k :=
  ⟨h1, h2, h3, h4, by rw [h5], h6⟩

/-- A limit computed from a longer chain is no lower. -/
theorem Job.limitNow_mono {j k : Job} (h1 : k.declaredLength = j.declaredLength) (h2 : j.top ≤ k.top) :
    j.limitNow ≤ k.limitNow := by
  unfold Job.limitNow
  rw [h1]
  split <;> omega

theorem Job.limitNow_congr {j k : Job} (h1 : k.declaredLength = j.declaredLength) (h2 : k.top = j.top) :
    k.limitNow = j.limitNow := by
  unfold Job.limitNow
  rw [h1, h2]

theorem Job.limitNow_le {j : Job} (h : j.declaredLength ≠ 0) : j.limitNow ≤ j.declaredLength := by
  unfold Job.limitNow
  rw [if_neg h]
  exact Nat.min_le_left _ _

theorem Job.granted_side {j : Job} (b : BlockId) (hc : j.complete = false) : j.SideOf (j.granted b) := by
  refine Job.sideOf_of rfl rfl rfl rfl rfl fun ok => ⟨ok.1, fun hk => ?_⟩
  obtain ⟨o1, _, o3⟩ := ok.2 hk
  refine ⟨?_, fun hd => Job.limitNow_le (j := j.lend b) hd, fun _ => (Job.limitNow_congr rfl rfl).symm⟩
  refine Nat.le_trans o1 (Nat.le_trans (Nat.le_of_eq (o3 hc)) ?_)
  exact Job.limitNow_mono (k := j.lend b) rfl (by simp [Job.top, Job.lend])

/-- A block in hand joins the tail of a chain. -/
theorem lend_perm (b : BlockId) (c : List BlockId) : ((b :: l) ++ c).Perm (l ++ (c ++ [b])) := by
  rw [List.cons_append, ← List.append_assoc]
  exact (List.perm_append_singleton b (l ++ c)).symm

theorem qualifies_open {i : JobId} {j : Job} (q : s.qualifies i = true) (hjob : s.job i = some j) :
    j.complete = false := by
  unfold State.qualifies at q
  rw [hjob] at q
  simp at q
  exact q.1.1.1.2

theorem grantTo_moves (hj : K .jobs) (i : JobId) (q : s.qualifies i = true) : Moves K l s l (s.grantTo i) := by
  unfold State.grantTo
  split
  · rename_i b rest j hf hjob
    refine .trans (.of (.free (l' := b :: l) hj rest (by rw [hf]; exact List.perm_middle))) ?_
    refine .trans (.of (.job (l' := l) hj i j (j.granted b) hjob (Job.granted_side b (qualifies_open s q hjob))
      (lend_perm l b j.allocation))) ?_
    exact .trans (creditRise_moves l _ hj i (j.granted b) (setJob_job_self _ _ _) _ _ _)
      (.trans (.of (.pointer hj i)) (evalTight_moves l _ hj))
  · exact .refl

theorem nextQualifying_qualifies {i : JobId} (h : s.nextQualifying = some i) : s.qualifies i = true :=
  List.find?_some h

theorem grantLoop_moves (hj : K .jobs) (n : Nat) : Moves K l s l (s.grantLoop n) := by
  induction n generalizing s with
  | zero => exact .refl
  | succ n ih =>
    unfold State.grantLoop
    split
    · rename_i i h
      exact .trans (grantTo_moves l s hj i (nextQualifying_qualifies s h)) (ih _)
    · exact .refl

theorem grantPass_moves (hj : K .jobs) : Moves K l s l s.grantPass := grantLoop_moves l s hj _

theorem Job.dropHead_side {j : Job} {b : BlockId} {rest : List BlockId} (ha : j.allocation = b :: rest) :
    j.SideOf j.dropHead := by
  refine Job.sideOf_of rfl rfl rfl rfl rfl fun ok => ⟨ok.1, fun hk => ?_⟩
  have hk' : j.kind = .print := hk
  obtain ⟨o1, o2, o3⟩ := ok.2 hk'
  refine ⟨o1, o2, fun hc => (o3 hc).trans (Job.limitNow_congr (j := j.dropHead) rfl ?_)⟩
  simp only [Job.top, Job.dropHead, hk', ha, List.tail_cons, List.length_cons]
  omega

theorem freeHead_moves (hj : K .jobs) (i : JobId) : Moves K l s l (s.freeHead i) := by
  unfold State.freeHead
  split
  · rename_i j hjob
    split
    · rename_i b rest ha
      refine .trans (.of (.job (l := l) (l' := b :: l) hj i j j.dropHead hjob (Job.dropHead_side ha) ?_))
        (joinFree_moves l _ hj b)
      rw [ha]
      show (l ++ b :: rest).Perm (b :: l ++ j.allocation.tail)
      rw [ha]
      exact List.perm_middle
    · exact .refl
  · exact .refl

theorem Job.closed_side {j : Job} : j.SideOf j.closed :=
  Job.sideOf_of rfl rfl rfl rfl rfl fun ok =>
    ⟨ok.1, fun _ => ⟨Nat.le_refl _, fun _ => Nat.le_refl _, fun hc => absurd hc (by simp [Job.closed])⟩⟩

theorem closeChain_moves (hj : K .jobs) (i : JobId) : Moves K l s l (s.closeChain i) := by
  unfold State.closeChain
  split
  · exact .refl
  · rename_i j hjob
    have first : Moves K l s l ((s.setJob i (some j.closed)).returnBlocks (j.allocation.drop j.keptAtClose)) := by
      refine .trans (.of (.job (l' := j.allocation.drop j.keptAtClose ++ l) hj i j j.closed hjob Job.closed_side ?_))
        (returnBlocks_moves l _ hj _)
      show (l ++ j.allocation).Perm (j.allocation.drop j.keptAtClose ++ l ++ j.allocation.take j.keptAtClose)
      conv_lhs => rw [← List.take_append_drop j.keptAtClose j.allocation]
      refine List.Perm.trans ?_ List.perm_append_comm
      refine List.Perm.trans List.perm_append_comm ?_
      rw [List.append_assoc]
    dsimp only
    split
    · exact .trans first (freeHead_moves l _ hj i)
    · exact first

theorem allocateScan_moves (hj : K .jobs) (i : JobId) {t : State} (h : s.allocateScan i = some t)
    (scan : ∀ j, s.job i = some j → j.kind = .scan) : Moves K l s l t := by
  unfold State.allocateScan at h
  split at h
  · rename_i b rest j hf hjob
    split at h
    · injection h with h
      subst h
      refine .trans (.of (.free (l' := b :: l) hj rest (by rw [hf]; exact List.perm_middle))) ?_
      refine .trans (.of (.job (l' := l) hj i j (j.lend b) hjob ?_ (lend_perm l b j.allocation)))
        (evalTight_moves l _ hj)
      refine Job.sideOf_of rfl rfl rfl rfl rfl fun ok => ⟨ok.1, fun hk => ?_⟩
      have hk' : j.kind = .print := hk
      rw [scan j hjob] at hk'
      exact absurd hk' (by simp)
    · exact absurd h (by simp)
  · exact absurd h (by simp)

end

end Sys2Proof.Machine
end

