-- ==== Sys2Proof/Laws/TouchMoves.lean ====
section
/-! SUPPORT. The touch queue, the mapper's and the poller's operations as rows of moves. -/

namespace Sys2Proof.Machine

/-! ### Touch queue (R130) -/

theorem coalesceNewest_length (c : ContactIx) (kx ky : Nat) (q : List TouchEntry) :
    (coalesceNewest c kx ky q).length = q.length := by
  induction q with
  | nil => rfl
  | cons e rest ih => unfold coalesceNewest; split <;> simp [ih]

theorem dropNewestMove_length (q : List TouchEntry) (h : q.any (fun e => e.kind == .move) = true) :
    (dropNewestMove q).length + 1 = q.length := by
  induction q with
  | nil => simp at h
  | cons e rest ih =>
    unfold dropNewestMove
    split
    · simp
    · rename_i hne
      simp only [List.any_cons, Bool.or_eq_true] at h
      rcases h with h | h
      · exact absurd (by simpa using h) hne
      · simpa using ih h

/-- R130 keeps the cap of 4. -/
theorem insertTouch_length (q : List TouchEntry) (e : TouchEntry) (h : q.length ≤ Config.touchCap) :
    (insertTouch q e).1.length ≤ Config.touchCap := by
  unfold insertTouch
  split
  · simpa [coalesceNewest_length] using h
  · split
    · rename_i hlt
      simp only [List.length_append, List.length_cons, List.length_nil]
      omega
    · split
      · exact h
      · split
        · rename_i hany
          have := dropNewestMove_length q.reverse (by simpa using hany)
          simp only [List.length_append, List.length_reverse, List.length_cons, List.length_nil] at this ⊢
          omega
        · split <;> exact h

section
variable {K : Kind → Prop} (l : List BlockId) (s : State) (ht : K .touch)
include ht

theorem touchQueue_moves (k : KioskId) (q : KioskPort → List TouchEntry)
    (h : ∀ p : KioskPort, p.touch.length ≤ Config.touchCap → (q p).length ≤ Config.touchCap) :
    Moves K l s l (s.modKiosk k fun p => { p with touch := q p }) :=
  Moves.kiosk k _ fun p => ⟨⟨p.control, q p, p.causes, rfl, rfl, h p, fun hn => absurd ht hn⟩, .rfl⟩

theorem overrun_moves (k : KioskId) : Moves K l s l (s.overrun k) :=
  .trans (Moves.kiosk k (KioskPort.latch .touchOverrun) fun p =>
    ⟨⟨p.control, p.touch, _, rfl, rfl, id, fun hn => absurd ht hn⟩, .rfl⟩) (raise_moves l _ _)

theorem handTouch_moves (k : KioskId) (e : TouchEntry) : Moves K l s l (s.handTouch k e).1 := by
  have first : Moves K l s l (s.modKiosk k fun p => { p with touch := (insertTouch (s.kiosk k).touch e).1 }) := by
    refine .of (.kiosk k _ ⟨⟨(s.kiosk k).control, _, (s.kiosk k).causes, rfl, rfl, insertTouch_length _ e,
      fun hn => absurd ht hn⟩, .rfl⟩)
  unfold State.handTouch
  dsimp only
  split
  · exact .trans first (overrun_moves l _ ht k)
  · exact first

theorem setContact_moves (c : ContactIx) (r : Contact) : Moves K l s l (s.setContact c r) := .of (.contact ht c r)

theorem placeOwed_moves (k : KioskId) (cs : List ContactIx) : Moves K l s l (s.placeOwed k cs) := by
  induction cs generalizing s with
  | nil => exact .refl
  | cons c rest ih =>
    unfold State.placeOwed
    split
    · split
      · rename_i b _ hroom
        refine .trans ?_ (ih _)
        refine .trans ?_ (setContact_moves l _ ht c .free)
        refine .of (.kiosk k _ ⟨⟨(s.kiosk k).control, _, (s.kiosk k).causes, rfl, rfl, fun _ => ?_,
          fun hn => absurd ht hn⟩, .rfl⟩)
        have := hroom.2.2
        simp only [List.length_append, List.length_cons, List.length_nil]
        omega
      · exact ih _
    · exact ih _

/-! ### Mapper (chapter 7) -/

theorem freshDown_moves (c : ContactIx) (pt : Nat × Nat) : Moves K l s l (s.freshDown c pt) := by
  unfold State.freshDown
  split
  · exact setContact_moves l _ ht _ _
  · dsimp only
    split
    · exact setContact_moves l _ ht _ _
    · split <;> exact .trans (handTouch_moves l _ ht _ _) (setContact_moves l _ ht _ _)

theorem offerOwed_moves (c : ContactIx) (b : Binding) (pt : Nat × Nat) : Moves K l s l (s.offerOwed c b pt) := by
  unfold State.offerOwed
  dsimp only
  split
  · exact .trans (handTouch_moves l _ ht _ _) (.trans (setContact_moves l _ ht _ _) (freshDown_moves l _ ht _ _))
  · exact .trans (handTouch_moves l _ ht _ _) (overrun_moves l _ ht _)

theorem downBound_moves (c : ContactIx) (b : Binding) (pt : Nat × Nat) : Moves K l s l (s.downBound c b pt) := by
  unfold State.downBound
  split
  · exact offerOwed_moves l _ ht _ _ _
  · split
    · dsimp only
      split
      · exact .trans (handTouch_moves l _ ht _ _) (.trans (setContact_moves l _ ht _ _) (freshDown_moves l _ ht _ _))
      · exact .trans (handTouch_moves l _ ht _ _) (.trans (setContact_moves l _ ht _ _) (offerOwed_moves l _ ht _ _ _))
    · exact .trans (setContact_moves l _ ht _ _) (freshDown_moves l _ ht _ _)

theorem moveBound_moves (c : ContactIx) (b : Binding) (sup : Bool) (pt : Nat × Nat) :
    Moves K l s l (s.moveBound c b sup pt) := by
  unfold State.moveBound
  dsimp only
  split
  · exact .refl
  · split
    · exact .refl
    · split
      · exact .trans (handTouch_moves l _ ht _ _) (setContact_moves l _ ht _ _)
      · exact handTouch_moves l _ ht _ _

theorem liftBound_moves (c : ContactIx) (b : Binding) : Moves K l s l (s.liftBound c b) := by
  unfold State.liftBound
  dsimp only
  split <;> exact .trans (handTouch_moves l _ ht _ _) (setContact_moves l _ ht _ _)

theorem upBound_moves (c : ContactIx) (b : Binding) (pt : Nat × Nat) : Moves K l s l (s.upBound c b pt) := by
  unfold State.upBound
  split
  · exact liftBound_moves l _ ht _ _
  · exact setContact_moves l _ ht _ _

theorem contactEvent_moves (c : ContactIx) (k : TouchKind) (sup : Bool) (pt : Nat × Nat) :
    Moves K l s l (s.contactEvent c k sup pt) := by
  unfold State.contactEvent
  split
  · exact freshDown_moves l _ ht _ _
  · exact .refl
  · exact .refl
  · exact freshDown_moves l _ ht _ _
  · exact .refl
  · exact setContact_moves l _ ht _ _
  · exact downBound_moves l _ ht _ _ _
  · split
    · exact .refl
    · exact moveBound_moves l _ ht _ _ _ _
  · split
    · exact .refl
    · exact upBound_moves l _ ht _ _ _

theorem panel_moves (p : PanelId) (f : Panel → Panel) (h : ∀ q : Panel, q.SideOf (f q)) :
    Moves K l s l (s.modPanel p f) := Moves.panel ht p f h

theorem handleReport_moves (p : PanelId) (c : Fin 10) (k : TouchKind) (x y : Nat) :
    Moves K l s l (s.handleReport p c k x y) := by
  refine .trans (panel_moves l _ ht p _ fun q => ?_) (contactEvent_moves l _ ht _ _ _ _)
  unfold Panel.countClamp
  split
  · exact ⟨q.presence, q.missRun, _, q.causes, rfl, id, fun _ => Nat.min_le_left _ _⟩
  · exact ⟨q.presence, q.missRun, q.clamps, q.causes, rfl, id, id⟩

theorem releaseContact_moves (c : ContactIx) : Moves K l s l (s.releaseContact c) := by
  unfold State.releaseContact
  split
  · exact .refl
  · exact setContact_moves l _ ht _ _
  · split
    · exact .refl
    · split
      · exact liftBound_moves l _ ht _ _
      · exact setContact_moves l _ ht _ _

theorem releasePanel_moves (p : PanelId) : Moves K l s l (s.releasePanel p) := by
  unfold State.releasePanel
  generalize contactIds = ids
  induction ids generalizing s with
  | nil => exact .refl
  | cons c rest ih => exact .trans (releaseContact_moves l _ ht _) (ih _)

/-! ### Poller (chapter 6) -/

theorem latchPanel_moves (p : PanelId) (c : PanelCause) : Moves K l s l (s.latchPanel p c) :=
  panel_moves l _ ht p _ fun q => ⟨q.presence, q.missRun, q.clamps, _, rfl, id, id⟩

theorem miss_moves (p : PanelId) : Moves K l s l (s.miss p) := by
  have first : Moves K l s l (s.modPanel p fun e => { e with missRun := min 8 ((s.panel p).missRun + 1) }) :=
    panel_moves l _ ht p _ fun q => ⟨q.presence, _, q.clamps, q.causes, rfl, fun _ => Nat.min_le_left _ _, id⟩
  unfold State.miss
  dsimp only
  split
  · refine .trans first (.trans (.trans (panel_moves l _ ht p _ fun q => ?_) (raise_moves l _ _))
      (releasePanel_moves l _ ht p))
    exact ⟨_, q.missRun, q.clamps, q.causes, rfl, id, id⟩
  · exact first

theorem goodReply_moves (p : PanelId) : Moves K l s l (s.goodReply p) := by
  have first : Moves K l s l (s.modPanel p fun e => { e with missRun := 0, presence := .present }) :=
    panel_moves l _ ht p _ fun q => ⟨_, 0, q.clamps, q.causes, rfl, fun _ => Nat.zero_le _, id⟩
  unfold State.goodReply
  dsimp only
  split
  · exact .trans first (raise_moves l _ _)
  · exact first

theorem takeReport_moves (p : PanelId) (r : List Byte) : Moves K l s l (s.takeReport p r) := by
  unfold State.takeReport
  split
  · exact latchPanel_moves l _ ht _ _
  · exact handleReport_moves l _ ht _ _ _ _ _

theorem takeReports_moves (p : PanelId) (bytes : List Byte) (n : Nat) : Moves K l s l (s.takeReports p bytes n) := by
  induction n generalizing s bytes with
  | zero => exact .refl
  | succ n ih => exact .trans (takeReport_moves l _ ht _ _) (ih _ _)

omit ht in
theorem modPoller_moves (d : DeviceId) (f : Poller → Poller) : Moves K l s l (s.modPoller d f) :=
  Moves.device d (fun p => { p with poller := f p.poller }) fun _ => ⟨rfl, rfl, rfl, rfl, rfl⟩

omit ht in
theorem setStep_moves (d : DeviceId) (st : PollStep) : Moves K l s l (s.setStep d st) := modPoller_moves l s d _

theorem malformedReply_moves (d : DeviceId) (p : PanelId) : Moves K l s l (s.malformedReply d p) :=
  .trans (setStep_moves l _ _ _) (.trans (latchPanel_moves l _ ht _ _) (miss_moves l _ ht _))

theorem takeReplyByte_moves (d : DeviceId) (p : PanelId) (before : List Byte) (data : Byte) (a : Bool) :
    Moves K l s l (s.takeReplyByte d p before data a) := by
  unfold State.takeReplyByte
  dsimp only
  split
  · exact malformedReply_moves l _ ht _ _
  · split
    · exact malformedReply_moves l _ ht _ _
    · split
      · exact .trans (setStep_moves l _ _ _) (.trans (goodReply_moves l _ ht _) (takeReports_moves l _ ht _ _ _))
      · exact setStep_moves l _ _ _

theorem touchChar_moves (d : DeviceId) (data : Byte) (a : Bool) : Moves K l s l (s.touchChar d data a) := by
  unfold State.touchChar
  split
  · exact latchDevice_moves l _ _ _
  · exact latchDevice_moves l _ _ _
  · exact takeReplyByte_moves l _ ht _ _ _ _ _
  · exact takeReplyByte_moves l _ ht _ _ _ _ _
  · split
    · exact latchDevice_moves l _ _ _
    · exact .refl

theorem releasePanels_moves (ps : List PanelId) : Moves K l s l (s.releasePanels ps) := by
  unfold State.releasePanels
  induction ps generalizing s with
  | nil => exact .refl
  | cons p rest ih =>
    rw [List.foldl_cons]
    exact Moves.trans (releasePanel_moves l s ht p) (ih (s.releasePanel p))

theorem restartPanel_moves (p : PanelId) : Moves K l s l (s.restartPanel p) := by
  unfold State.restartPanel
  refine Moves.trans (releasePanel_moves l s ht p) (panel_moves l _ ht p Panel.restart fun q => ?_)
  exact ⟨_, 0, q.clamps, q.causes, rfl, fun _ => Nat.zero_le _, id⟩

theorem restartPanels_moves (ps : List PanelId) : Moves K l s l (s.restartPanels ps) := by
  unfold State.restartPanels
  induction ps generalizing s with
  | nil => exact .refl
  | cons p rest ih =>
    rw [List.foldl_cons]
    exact Moves.trans (restartPanel_moves l s ht p) (ih (s.restartPanel p))

theorem leaveOnline_moves (d : DeviceId) : Moves K l s l (s.leaveOnline d) :=
  .trans (Moves.device d (fun p => { p.abandonRound with service := .offline }) fun _ => ⟨rfl, rfl, rfl, rfl, rfl⟩)
    (releasePanels_moves l _ ht _)

end

end Sys2Proof.Machine
end

