-- ==== Sys2Proof/Laws/DeviceMoves.lean ====
section
/-! SUPPORT. The operations of the device ports and their jobs, of the poll rounds and of the service states as rows of
moves. -/

namespace Sys2Proof.Machine

section
variable {K : Kind → Prop} (l : List BlockId) (s : State) (hj : K .jobs)

/-! ### Endings and holds -/

theorem Job.side_pause {j : Job} (b : Bool) : j.SideOf { j with paused := b } :=
  Job.sideOf_of rfl rfl rfl rfl rfl id

theorem reviseGap_side (p : DevicePort) (b : Bool) : p.SideOf (p.reviseGap b) := by
  unfold DevicePort.reviseGap
  split
  · exact .rfl
  · exact ⟨rfl, rfl, rfl, rfl, rfl⟩

theorem DevicePort.SideOf.trans {p q r : DevicePort} (h : p.SideOf q) (g : q.SideOf r) : p.SideOf r :=
  ⟨g.1.trans h.1, g.2.1.trans h.2.1, g.2.2.1.trans h.2.2.1, g.2.2.2.1.trans h.2.2.2.1, g.2.2.2.2.trans h.2.2.2.2⟩

theorem evalWatermark_moves (i : JobId) : Moves K l s l (s.evalWatermark i) := by
  unfold State.evalWatermark
  split
  · exact .refl
  · refine Moves.device _ _ fun p => ?_
    split
    · exact .rfl
    · exact DevicePort.SideOf.trans ⟨rfl, rfl, rfl, rfl, rfl⟩ (reviseGap_side _ _)

theorem letScanGo_side (p : DevicePort) (reason : EndReason) : p.SideOf (p.letScanGo reason) :=
  ⟨rfl, rfl, rfl, rfl, rfl⟩

/-- A step on one job of the table that leaves its chain alone. -/
theorem setJob_moves (hj : K .jobs) (i : JobId) (j k : Job) (live : s.job i = some j) (side : j.SideOf k)
    (same : k.allocation = j.allocation) : Moves K l s l (s.setJob i (some k)) :=
  .of (.job hj i j k live side (by rw [same]))

theorem modJob_moves (hj : K .jobs) (i : JobId) (f : Job → Job) (side : ∀ j : Job, j.SideOf (f j))
    (same : ∀ j : Job, (f j).allocation = j.allocation) : Moves K l s l (s.modJob i f) := by
  unfold State.modJob
  split
  · rename_i j h
    exact setJob_moves l s hj i j _ h (side j) (same j)
  · exact .refl

/-! ### A JOB_END handed ahead of the blocks' return

An ending returns the chain and then hands the JOB_END (R5). To count the control queue's entries the JOB_END is taken
with the record's freeing (`Move.finish`); what the return of the blocks can do in between, a NOTICE among it, is then a
row of moves on the state that already has the JOB_END. -/

section
variable (k : KioskId) (ch : Byte) (slot : SlotId) (reason : EndReason) (count : Nat) (le : Bool)

theorem setKiosk_comm {n m : KioskId} (h : n ≠ m) (p q : KioskPort) :
    (s.setKiosk n p).setKiosk m q = (s.setKiosk m q).setKiosk n p := by
  unfold State.setKiosk
  congr 1
  exact Vector.set_comm _ _ (fun e => h (Fin.ext e))

theorem handNotice_behind (n : KioskId) : Moves K l (s.handJobEnd k ch slot reason count le) l
    ((s.handNotice n).handJobEnd k ch slot reason count le) := by
  unfold State.handNotice State.handJobEnd State.modKiosk
  by_cases h : n = k
  · subst h
    rw [setKiosk_setKiosk, setKiosk_kiosk_self]
    refine Moves.trans (.of (.kiosk n _ ?_)) (by rw [setKiosk_setKiosk]; exact .refl)
    rw [setKiosk_kiosk_self]
    dsimp only
    cases hn : (s.kiosk n).control.any ControlEntry.isNotice
    · have none : noticesIn ((s.kiosk n).control.filter fun e => !e.isCreditFor slot) = 0 := by
        unfold noticesIn
        rw [List.countP_eq_zero]
        exact fun e he => List.any_eq_false.mp hn e (List.mem_filter.mp he).1
      refine ⟨.control (by simp [List.filter_append, ControlEntry.isReply, ControlEntry.isCreditFor]), ?_⟩
      rw [if_neg (by simp), List.filter_append]
      show NoNewEntries _ ((s.kiosk n).control.filter _ ++ [.notice] ++ _)
      generalize ((s.kiosk n).control.filter fun e => !e.isCreditFor slot) = c at none
      unfold noticesIn at none
      simp [NoNewEntries, noticesIn, creditsIn, jobEndsIn, List.countP_append, List.countP_cons, none,
        ControlEntry.isNotice, ControlEntry.isCreditFor, ControlEntry.isJobEndFor]
    · exact .rfl
  · rw [setKiosk_kiosk_of_ne _ _ _ _ (fun e => h e.symm), setKiosk_comm s h]
    refine .of (.kiosk n _ ?_)
    rw [setKiosk_kiosk_of_ne _ _ _ _ h]
    exact handNotice_side _

theorem raise_behind (f : Flag) : Moves K l (s.handJobEnd k ch slot reason count le) l
    ((s.raise f).handJobEnd k ch slot reason count le) := by
  unfold State.raise
  split
  · exact .refl
  · refine Moves.trans (.of (.flag f)) ?_
    dsimp only
    split
    · split
      · exact handNotice_behind l (s.setFlags (s.flags ||| f.mask)) k ch slot reason count le _
      · exact .refl
    · exact .refl

theorem evalTight_behind (hj : K .jobs) : Moves K l (s.handJobEnd k ch slot reason count le) l
    (s.evalTight.handJobEnd k ch slot reason count le) := by
  unfold State.evalTight
  split
  · split
    · refine Moves.trans (.of (.tight hj false)) ?_
      dsimp only
      split
      · exact raise_behind l (s.setTight false) k ch slot reason count le _
      · exact .refl
    · exact .refl
  · split
    · refine Moves.trans (.of (.tight hj true)) ?_
      dsimp only
      split
      · exact raise_behind l (s.setTight true) k ch slot reason count le _
      · exact .refl
    · exact .refl

theorem returnBlocks_behind (hj : K .jobs) (bs : List BlockId) :
    Moves K (bs ++ l) (s.handJobEnd k ch slot reason count le) l
      ((s.returnBlocks bs).handJobEnd k ch slot reason count le) := by
  unfold State.returnBlocks
  induction bs generalizing s with
  | nil => exact .refl
  | cons b rest ih =>
    refine Moves.trans ?_ (ih (s.joinFree b))
    refine Moves.trans (.of (.free hj (s.free ++ [b]) ?_))
      (evalTight_behind (rest ++ l) (s.setFree (s.free ++ [b])) k ch slot reason count le hj)
    show (b :: rest ++ l ++ s.free).Perm (rest ++ l ++ (s.free ++ [b]))
    rw [← List.append_assoc, List.cons_append, List.cons_append]
    exact (List.perm_append_singleton b (rest ++ l ++ s.free)).symm

end

include hj

theorem endJob_moves (i : JobId) (reason : EndReason) : Moves K l s l (s.endJob i reason) := by
  unfold State.endJob
  split
  · exact .refl
  · rename_i j h
    dsimp only
    refine .trans ?_ (grantPass_moves l _ hj)
    split
    · exact .trans (.of (.drop hj i j reason h)) (returnBlocks_moves l _ hj j.allocation)
    · exact .trans (.of (.finish hj i j reason _ h)) (returnBlocks_behind l _ _ _ _ _ _ _ hj j.allocation)

theorem decideEnd_moves (i : JobId) (reason : EndReason) : Moves K l s l (s.decideEnd i reason) := by
  unfold State.decideEnd
  split
  · exact .refl
  · rename_i j h
    split
    · exact .refl
    · split
      · exact .trans (Moves.device _ _ fun p => letScanGo_side p reason)
          (setJob_moves l _ hj i j _ h (Job.sideOf_of rfl rfl rfl rfl rfl id) rfl)
      · exact endJob_moves _ _ hj i reason

/-! ### Break, drain, scheduler -/

omit hj in
theorem startBreak_side (p : DevicePort) : p.SideOf p.startBreak := by
  unfold DevicePort.startBreak
  split
  · split
    · exact ⟨rfl, rfl, rfl, rfl, rfl⟩
    · exact .rfl
  · split
    · exact ⟨rfl, rfl, rfl, rfl, rfl⟩
    · exact .rfl
  · exact .rfl

omit hj in
theorem completeDrain_moves (d : DeviceId) : Moves K l s l (s.completeDrain d) := by
  unfold State.completeDrain
  split
  · exact .refl
  · split
    · exact .trans (Moves.device d (fun p => { p with service := .offline }) fun _ => ⟨rfl, rfl, rfl, rfl, rfl⟩)
        (raise_moves l _ _)
    · exact .trans (Moves.device d (fun p => { p with service := .fault .offline }) fun _ => ⟨rfl, rfl, rfl, rfl, rfl⟩)
        (raise_moves l _ _)
    · exact .refl

omit hj in
/-- R12: the scheduler picks a READY job of the queue. -/
theorem pickReady_spec {q : List JobId} {i : JobId} {p : Nat} (h : s.pickReady q = some (i, p)) :
    i ∈ q ∧ s.readyPriority i = some p := by
  induction q generalizing i p with
  | nil => exact absurd h (by simp [State.pickReady])
  | cons a rest ih =>
    unfold State.pickReady at h
    split at h
    · rename_i pa i' p' h1 h2
      split at h
      · injection h with h; injection h with ha hb
        exact ⟨by simp [ha], by rw [← ha, ← hb]; exact h1⟩
      · injection h with h; injection h with ha hb
        have := ih h2
        rw [ha, hb] at this
        exact ⟨List.mem_cons_of_mem _ this.1, this.2⟩
    · rename_i pa h1 h2
      injection h with h; injection h with ha hb
      exact ⟨by simp [ha], by rw [← ha, ← hb]; exact h1⟩
    · have := ih h
      exact ⟨List.mem_cons_of_mem _ this.1, this.2⟩

omit hj in
theorem readyPriority_ready {i : JobId} {p : Nat} (h : s.readyPriority i = some p) :
    ∃ j, s.job i = some j ∧ j.state = .ready := by
  unfold State.readyPriority at h
  split at h
  · rename_i j hjob
    split at h
    · rename_i hr
      exact ⟨j, hjob, hr⟩
    · exact absurd h (by simp)
  · exact absurd h (by simp)

theorem schedule_moves (d : DeviceId) : Moves K l s l (s.schedule d) := by
  unfold State.schedule
  split
  · rename_i may
    split
    · rename_i i p h
      have := pickReady_spec s h
      exact .of (.start hj d i may this.1 (readyPriority_ready s this.2))
    · exact .refl
  · exact .refl

/-! ### Transmitter -/

theorem feedPrint_moves (d : DeviceId) (i : JobId) (j : Job) (h : s.job i = some j) :
    Moves K l s l (s.feedPrint d i j) := by
  unfold State.feedPrint
  split
  · exact .refl
  · rename_i b rest ha
    split
    · rename_i hc
      have first : Moves K l s l ((s.modDevice d fun p =>
          { p with holding := some { data := s.readBlock b j.sent, address := false } }).setJob i
            (some { j with sent := j.sent + 1 })) := by
        refine .trans (Moves.device d (fun p =>
          { p with holding := some { data := s.readBlock b j.sent, address := false } })
          fun _ => ⟨rfl, rfl, rfl, rfl, rfl⟩) (setJob_moves l _ hj i j _ h ?_ rfl)
        exact Job.sideOf_of rfl rfl rfl rfl rfl fun ok => ⟨hc.2, ok.2⟩
      dsimp only
      split
      · exact .trans first (.trans (freeHead_moves l _ hj i) (grantPass_moves l _ hj))
      · exact first
    · exact .refl

omit hj in
theorem feedCommand_moves (d : DeviceId) (j : Job) : Moves K l s l (s.feedCommand d j) := by
  unfold State.feedCommand
  dsimp only
  split
  · exact Moves.device d (fun p =>
      { p with holding := some { data := j.command.getD (j.command.length - (s.device d).scan.commandLeft) 0#8,
                                 address := false },
               scan := { p.scan with commandLeft := (s.device d).scan.commandLeft - 1 } })
      fun _ => ⟨rfl, rfl, rfl, rfl, rfl⟩
  · exact .refl

theorem feed_moves (d : DeviceId) : Moves K l s l (s.feed d) := by
  unfold State.feed
  split
  · exact .refl
  · split
    · exact .refl
    · split
      · exact .refl
      · rename_i i _ _ j h
        split
        · exact feedPrint_moves l s hj d i j h
        · exact feedCommand_moves l s d j

omit hj in
theorem moveByte_side (p : DevicePort) : p.SideOf p.moveByte := by
  unfold DevicePort.moveByte
  split
  · exact ⟨rfl, rfl, rfl, rfl, rfl⟩
  · exact .rfl

omit hj in
theorem moveTx_moves (d : DeviceId) : Moves K l s l (s.moveTx d) := by
  unfold State.moveTx
  split
  · exact .refl
  · exact Moves.device d _ moveByte_side

omit hj in
theorem updateUnderrun_moves (d : DeviceId) : Moves K l s l (s.updateUnderrun d) := by
  unfold State.updateUnderrun
  split
  · refine Moves.device d _ fun p => ?_
    split
    · exact ⟨rfl, rfl, rfl, rfl, rfl⟩
    · exact .rfl
  · exact Moves.device d (fun p => { p with underrun := .stopped }) fun _ => ⟨rfl, rfl, rfl, rfl, rfl⟩

theorem pump_moves (d : DeviceId) : Moves K l s l (s.pump d) :=
  .trans (.trans (.trans (feed_moves l s hj d) (moveTx_moves _ _ d)) (feed_moves l _ hj d))
    (updateUnderrun_moves l _ d)

theorem settleRound_moves (d : DeviceId) : Moves K l s l (s.settleRound d) := by
  unfold State.settleRound
  exact .trans (.trans (.trans (Moves.device d _ startBreak_side) (completeDrain_moves l _ d)) (schedule_moves l _ hj d))
    (pump_moves l _ hj d)

theorem settleLoop_moves (d : DeviceId) (n : Nat) : Moves K l s l (s.settleLoop d n) := by
  induction n generalizing s with
  | zero => exact .refl
  | succ n ih =>
    rw [State.settleLoop]
    have first := settleRound_moves l s hj d
    generalize s.settleRound d = t at first ⊢
    generalize t.finishedPrint d = o
    cases o with
    | none => exact first
    | some i => exact Moves.trans first (Moves.trans (endJob_moves l t hj i .done) (ih (t.endJob i .done)))

/-- The settling of a device port is a row of moves. -/
theorem settle_moves (d : DeviceId) : Moves K l s l (s.settle d) := by
  unfold State.settle
  exact settleLoop_moves l s hj d _

theorem settleAll_moves (ds : List DeviceId) : Moves K l s l (s.settleAll ds) := by
  unfold State.settleAll
  induction ds generalizing s with
  | nil => exact .refl
  | cons d rest ih =>
    rw [List.foldl_cons]
    exact Moves.trans (settle_moves l s hj d) (ih (s.settle d))

/-! ### Poll rounds -/

theorem beginPoll_moves (d : DeviceId) (p : PanelId) (rest : List PanelId) : Moves K l s l (s.beginPoll d p rest) :=
  .trans (.trans (modPoller_moves l s d _)
    (Moves.device d (fun port => { port with holding := some (s.pollChar d p) }) fun _ => ⟨rfl, rfl, rfl, rfl, rfl⟩))
    (settle_moves l _ hj d)

theorem startRound_moves (d : DeviceId) : Moves K l s l (s.startRound d) := by
  unfold State.startRound
  dsimp only
  split
  · exact modPoller_moves l s d _
  · exact .trans (modPoller_moves l s d _) (beginPoll_moves l _ hj d _ _)

theorem advanceRound_moves (d : DeviceId) : Moves K l s l (s.advanceRound d) := by
  unfold State.advanceRound
  split
  · exact beginPoll_moves l s hj d _ _
  · dsimp only
    split
    · exact .trans (modPoller_moves l s d _) (startRound_moves l _ hj d)
    · exact modPoller_moves l s d _

/-! ### Service states -/

theorem enterFault_moves (d : DeviceId) (t : ReturnTarget) : Moves K l s l (s.enterFault d t) := by
  have first : Moves K l s l ((s.modDevice d fun p => { p with service := .fault t }).raise .deviceFault) :=
    .trans (Moves.device d (fun p => { p with service := .fault t }) fun _ => ⟨rfl, rfl, rfl, rfl, rfl⟩)
      (raise_moves l _ _)
  unfold State.enterFault
  dsimp only
  split
  · exact first
  · split
    · exact first
    · rename_i j h
      split
      · refine .trans first (.trans (Moves.device d DevicePort.pause fun _ => ⟨rfl, rfl, rfl, rfl, rfl⟩)
          (setJob_moves l _ hj _ j _ h (Job.side_pause true) rfl))
      · exact first

theorem leaveFault_moves (d : DeviceId) (t : ReturnTarget) : Moves K l s l (s.leaveFault d t) := by
  have first : Moves K l s l (s.modDevice d fun p => { p.unpause with service := t.state }) := by
    refine Moves.device d _ fun p => ?_
    have h := reviseGap_side { p with
      faultLimit := .stopped,
      scan := { p.scan with
        firstByte :=
          if p.scan.firstByte = Timer.suspended then Timer.running p.record.firstByteTimeout
          else p.scan.firstByte } } false
    exact ⟨h.1, h.2.1, h.2.2.1, h.2.2.2.1, h.2.2.2.2⟩
  unfold State.leaveFault
  dsimp only
  split
  · exact .trans first (settle_moves l _ hj d)
  · exact .trans first (.trans (modJob_moves l _ hj _ _ (fun _ => Job.side_pause false) fun _ => rfl)
      (settle_moves l _ hj d))

theorem becomeOnline_moves (d : DeviceId) : Moves K l s l (s.becomeOnline d) := by
  have first : Moves K l s l (s.modDevice d fun p => { p with service := .online }) :=
    Moves.device d (fun p => { p with service := .online }) fun _ => ⟨rfl, rfl, rfl, rfl, rfl⟩
  unfold State.becomeOnline
  dsimp only
  split
  · exact .trans first (startRound_moves l _ hj d)
  · split
    · exact .trans first (enterFault_moves l _ hj d _)
    · exact .trans first (settle_moves l _ hj d)

theorem qualify_moves (d : DeviceId) (b : Bool) : Moves K l s l (s.qualify d b) := by
  have first : Moves K l s l (s.modDevice d fun p => { p with atn := b, blanking := .stopped }) :=
    Moves.device d (fun p => { p with atn := b, blanking := .stopped }) fun _ => ⟨rfl, rfl, rfl, rfl, rfl⟩
  unfold State.qualify
  dsimp only
  split
  · split
    · split
      · exact first
      · exact .trans first (startRound_moves l _ hj d)
    · exact .trans first (enterFault_moves l _ hj d _)
  · split
    · exact first
    · exact .trans first (enterFault_moves l _ hj d _)
  · exact .trans first (leaveFault_moves l _ hj d _)
  · exact first

theorem followAtn_moves (d : DeviceId) : Moves K l s l (s.followAtn d) := by
  unfold State.followAtn
  dsimp only
  split
  · exact Moves.device d (fun q => { q with blanking := .stopped }) fun _ => ⟨rfl, rfl, rfl, rfl, rfl⟩
  · split
    · exact qualify_moves l s hj d _
    · split
      · exact Moves.device d (fun q => { q with blanking := _ }) fun _ => ⟨rfl, rfl, rfl, rfl, rfl⟩
      · exact .refl

/-! ### Scan reception -/

theorem endIfDelivered_moves (i : JobId) : Moves K l s l (s.endIfDelivered i) := by
  unfold State.endIfDelivered
  split
  · exact .refl
  · split
    · exact endJob_moves l s hj i _
    · exact .refl

theorem truncate_moves (d : DeviceId) (i : JobId) : Moves K l s l (s.truncate d i) := by
  unfold State.truncate
  refine .trans ?_ (settle_moves l _ hj d)
  refine .trans ?_ (endIfDelivered_moves l _ hj i)
  refine .trans ?_ (modJob_moves l _ hj i Job.cutShort (fun j => ?_) fun _ => rfl)
  · exact .trans (latchDevice_moves l s d _)
      (Moves.device d DevicePort.truncationStop fun _ => ⟨rfl, rfl, rfl, rfl, rfl⟩)
  · exact Job.sideOf_of rfl rfl rfl rfl rfl id

theorem storeByte_moves (hb : K .bytes) (d : DeviceId) (i : JobId) (fill : Nat) (data : Byte) (bad : Bool)
    (scan : ∀ j, s.job i = some j → j.kind = .scan) : Moves K l s l (s.storeByte d i fill data bad) := by
  unfold State.storeByte
  split
  · exact .refl
  · rename_i j h
    split
    · exact .refl
    · rename_i b _
      refine .trans (.trans (.of (.byte hb b fill data)) (setJob_moves l _ hj i j (j.stored bad) h ?_ rfl))
        (Moves.device d (DevicePort.charStored j.paused) fun p => ?_)
      · refine Job.sideOf_of rfl rfl rfl rfl rfl fun ok => ⟨Nat.le_succ_of_le ok.1, fun hk => ?_⟩
        have hk' : j.kind = .print := hk
        rw [scan j h] at hk'
        exact absurd hk' (by simp)
      · exact DevicePort.SideOf.trans ⟨rfl, rfl, rfl, rfl, rfl⟩ (reviseGap_side _ _)

omit hj in
/-- A scan allocation leaves every job's kind. -/
theorem allocateScan_kind {i n : JobId} {t : State} (h : s.allocateScan i = some t)
    (scan : ∀ j, s.job n = some j → j.kind = .scan) : ∀ j, t.job n = some j → j.kind = .scan := by
  unfold State.allocateScan at h
  split at h
  · rename_i b rest j hf hjob
    split at h
    · injection h with h
      subst h
      have hraise : ∀ (u : State) (f : Flag), (u.raise f).job n = u.job n := by
        intro u f
        unfold State.raise
        split
        · rfl
        · dsimp only
          split
          · split
            · unfold State.handNotice; rfl
            · rfl
          · rfl
      have htight : ∀ u : State, u.evalTight.job n = u.job n := by
        intro u
        unfold State.evalTight
        split
        · split
          · dsimp only; split
            · rw [hraise]; rfl
            · rfl
          · rfl
        · split
          · dsimp only; split
            · rw [hraise]; rfl
            · rfl
          · rfl
      intro k hk
      rw [htight, setJob_job] at hk
      split at hk
      · rename_i hni
        injection hk with hk
        subst hk
        exact scan j (by rw [hni]; exact hjob)
      · exact scan k hk
    · exact absurd h (by simp)
  · exact absurd h (by simp)

theorem scanChar_moves (hb : K .bytes) (d : DeviceId) (i : JobId) (data : Byte) (bad : Bool)
    (scan : ∀ j, s.job i = some j → j.kind = .scan) : Moves K l s l (s.scanChar d i data bad) := by
  unfold State.scanChar
  split
  · exact .refl
  · split
    · exact truncate_moves l s hj d i
    · split
      · split
        · exact truncate_moves l s hj d i
        · rename_i t h
          refine .trans (.trans (allocateScan_moves l s hj i h scan) (evalWatermark_moves l t i)) ?_
          refine storeByte_moves l _ hj hb d i 0 data bad ?_
          have := allocateScan_kind s h scan
          intro j hjob
          refine this j ?_
          have same : (t.evalWatermark i).job i = t.job i := by
            unfold State.evalWatermark
            split <;> rfl
          rw [← same]; exact hjob
      · exact storeByte_moves l s hj hb d i _ data bad scan

omit hj in
theorem activeScan_kind {d : DeviceId} {i : JobId} (h : s.activeScan d = some i) :
    ∀ j, s.job i = some j → j.kind = .scan := by
  intro j hjob
  unfold State.activeScan at h
  have := Option.filter_eq_some_iff.mp h
  simpa [hjob] using this.2

theorem scannerChar_moves (hb : K .bytes) (d : DeviceId) (data : Byte) (bad : Bool) :
    Moves K l s l (s.scannerChar d data bad) := by
  unfold State.scannerChar
  split
  · exact .refl
  · split
    · split
      · rename_i i h
        exact scanChar_moves l s hj hb d i data bad (activeScan_kind s h)
      · exact latchDevice_moves l s d _
    · exact latchDevice_moves l s d _

theorem offlineChar_moves (d : DeviceId) : Moves K l s l (s.offlineChar d) := by
  unfold State.offlineChar
  dsimp only
  split
  · exact .trans (raise_moves l s _) (becomeOnline_moves l _ hj d)
  · exact raise_moves l s _

theorem takeChar_moves (hb : K .bytes) (ht : K .touch) (d : DeviceId) (data : Byte) (a bad : Bool) :
    Moves K l s l (s.takeChar d data a bad) := by
  unfold State.takeChar
  split
  · exact offlineChar_moves l s hj d
  · exact offlineChar_moves l s hj d
  · exact scannerChar_moves l s hj hb d data bad
  · exact scannerChar_moves l s hj hb d data bad
  · exact scannerChar_moves l s hj hb d data bad
  · exact touchChar_moves l s ht d data a
  · exact .refl

end

end Sys2Proof.Machine
end

