-- ==== Sys2Proof/Laws/Memory.lean ====
section
/-! SUPPORT. The spool's memory: a write keeps the canonical form, is read back, and changes no other byte; two
canonical memories that read alike are equal. -/

namespace Sys2Proof.Machine

/-- Raising the lower bound asks for less. -/
theorem Memory.wfFrom_mono {m : List Host.Cell} {lo lo' : Nat} (h : lo' ≤ lo) (w : Memory.wfFrom lo m = true) :
    Memory.wfFrom lo' m = true := by
  cases m with
  | nil => rfl
  | cons c rest =>
    obtain ⟨a, b⟩ := c
    simp only [Memory.wfFrom, Bool.and_eq_true, decide_eq_true_eq] at w ⊢
    exact ⟨⟨⟨Nat.le_trans h w.1.1.1, w.1.1.2⟩, w.1.2⟩, w.2⟩

/-- Below every listed address memory reads as unlisted. -/
theorem Memory.read_below {m : List Host.Cell} {lo x : Nat} (w : Memory.wfFrom lo m = true) (h : x < lo) :
    Memory.read m x = Config.spoolFill := by
  induction m generalizing lo with
  | nil => rfl
  | cons c rest ih =>
    obtain ⟨a, b⟩ := c
    simp only [Memory.wfFrom, Bool.and_eq_true, decide_eq_true_eq] at w
    obtain ⟨⟨⟨h1, _⟩, _⟩, h4⟩ := w
    rw [Memory.read, if_neg (by omega)]
    exact ih h4 (by omega)

/-- A write keeps the canonical form. -/
theorem Memory.wfFrom_write {m : List Host.Cell} {lo x : Nat} {v : Byte} (w : Memory.wfFrom lo m = true) (h : lo ≤ x)
    (hx : x < 262144) : Memory.wfFrom lo (Memory.write m x v) = true := by
  induction m generalizing lo with
  | nil =>
    by_cases hv : v = Config.spoolFill
    · simp [Memory.write, hv, Memory.wfFrom]
    · simp [Memory.write, hv, Memory.wfFrom, h, hx]
  | cons c rest ih =>
    obtain ⟨a, b⟩ := c
    simp only [Memory.wfFrom, Bool.and_eq_true, decide_eq_true_eq] at w
    obtain ⟨⟨⟨h1, h2⟩, h3⟩, h4⟩ := w
    by_cases hlt : x < a
    · by_cases hv : v = Config.spoolFill
      · simp only [Memory.write, if_pos hlt, if_pos hv, Memory.wfFrom, Bool.and_eq_true, decide_eq_true_eq]
        exact ⟨⟨⟨h1, h2⟩, h3⟩, h4⟩
      · simp only [Memory.write, if_pos hlt, if_neg hv, Memory.wfFrom, Bool.and_eq_true, decide_eq_true_eq]
        exact ⟨⟨⟨h, hx⟩, hv⟩, ⟨⟨hlt, h2⟩, h3⟩, h4⟩
    · by_cases he : x = a
      · by_cases hv : v = Config.spoolFill
        · simp only [Memory.write, if_neg hlt, if_pos he, if_pos hv]
          exact Memory.wfFrom_mono (by omega) h4
        · simp only [Memory.write, if_neg hlt, if_pos he, if_neg hv, Memory.wfFrom, Bool.and_eq_true, decide_eq_true_eq]
          exact ⟨⟨⟨h, hx⟩, hv⟩, by rw [he]; exact h4⟩
      · simp only [Memory.write, if_neg hlt, if_neg he, Memory.wfFrom, Bool.and_eq_true, decide_eq_true_eq]
        exact ⟨⟨⟨h1, h2⟩, h3⟩, ih h4 (by omega)⟩

theorem Memory.wf_write {m : List Host.Cell} {x : Nat} {v : Byte} (w : Memory.wf m = true) (hx : x < 262144) :
    Memory.wf (Memory.write m x v) = true := Memory.wfFrom_write w (Nat.zero_le _) hx

/-- The byte written is read back, and every other byte reads as before. -/
theorem Memory.read_write {m : List Host.Cell} {lo x y : Nat} {v : Byte} (w : Memory.wfFrom lo m = true) :
    Memory.read (Memory.write m x v) y = if y = x then v else Memory.read m y := by
  induction m generalizing lo with
  | nil =>
    unfold Memory.write
    by_cases hy : y = x
    · subst hy
      by_cases hv : v = Config.spoolFill
      · rw [if_pos hv, if_pos rfl, hv]; rfl
      · rw [if_neg hv, if_pos rfl, Memory.read, if_pos rfl]
    · have hxy : ¬ x = y := fun e => hy e.symm
      by_cases hv : v = Config.spoolFill
      · rw [if_pos hv, if_neg hy]
      · rw [if_neg hv, if_neg hy]
        show (if x = y then v else Config.spoolFill) = Config.spoolFill
        rw [if_neg hxy]
  | cons c rest ih =>
    obtain ⟨a, b⟩ := c
    have w' := w
    simp only [Memory.wfFrom, Bool.and_eq_true, decide_eq_true_eq] at w'
    obtain ⟨⟨⟨h1, h2⟩, h3⟩, h4⟩ := w'
    unfold Memory.write
    by_cases hlt : x < a
    · rw [if_pos hlt]
      by_cases hy : y = x
      · subst hy
        by_cases hv : v = Config.spoolFill
        · rw [if_pos hv, if_pos rfl, hv, Memory.read, if_neg (by omega)]
          exact Memory.read_below h4 (by omega)
        · rw [if_neg hv, if_pos rfl, Memory.read, if_pos rfl]
      · have hxy : ¬ x = y := fun e => hy e.symm
        by_cases hv : v = Config.spoolFill
        · rw [if_pos hv, if_neg hy]
        · rw [if_neg hv, if_neg hy, Memory.read, if_neg hxy]
    · rw [if_neg hlt]
      by_cases he : x = a
      · subst he
        rw [if_pos rfl]
        by_cases hy : y = x
        · subst hy
          by_cases hv : v = Config.spoolFill
          · rw [if_pos hv, if_pos rfl, hv]
            exact Memory.read_below h4 (by omega)
          · rw [if_neg hv, if_pos rfl, Memory.read, if_pos rfl]
        · have hxy : ¬ x = y := fun e => hy e.symm
          by_cases hv : v = Config.spoolFill
          · rw [if_pos hv, if_neg hy, Memory.read, if_neg hxy]
          · rw [if_neg hv, if_neg hy, Memory.read, if_neg hxy, Memory.read, if_neg hxy]
      · rw [if_neg he, Memory.read, Memory.read]
        by_cases hya : a = y
        · rw [if_pos hya, if_pos hya, if_neg (by omega)]
        · rw [if_neg hya, if_neg hya]
          exact ih h4

/-- Every address of a block lies in the spool. -/
theorem blockAddr_lt (b : BlockId) (pos : Nat) : blockAddr b pos < 262144 := by
  unfold blockAddr
  have := b.isLt
  omega

/-- Two positions of blocks share an address only when block and position agree. -/
theorem blockAddr_inj (b c : BlockId) (m n : Nat) : blockAddr b m = blockAddr c n ↔ b = c ∧ m % 128 = n % 128 := by
  unfold blockAddr
  constructor
  · intro h
    exact ⟨Fin.ext (by omega), by omega⟩
  · rintro ⟨rfl, h⟩
    omega

theorem writeBlock_wf (s : State) (b : BlockId) (pos : Nat) (v : Byte) (w : Memory.wf s.mem = true) :
    Memory.wf (s.writeBlock b pos v).mem = true := Memory.wf_write w (blockAddr_lt b pos)

/-- R39: the byte written at a position of a block is read there, and every other byte of the spool as before. -/
theorem writeBlock_readBlock (s : State) (b c : BlockId) (m n : Nat) (v : Byte) (w : Memory.wf s.mem = true) :
    (s.writeBlock b m v).readBlock c n = if c = b ∧ n % 128 = m % 128 then v else s.readBlock c n := by
  unfold State.writeBlock State.readBlock State.setMem
  rw [Memory.read_write w]
  simp only [blockAddr_inj]

end Sys2Proof.Machine
end

