-- ==== Sys2Proof/Laws/Invariants.lean ====
section
/-! SUPPORT. Every move of Moves.lean keeps every law of Safety.lean, with the blocks in hand counted. -/

namespace Sys2Proof.Machine

/-! ### Blocks -/

/-- The chains of all records. -/
def State.chains (s : State) : List BlockId := allJobs.flatMap fun i => chainOf (s.job i)

/-- R38 with blocks in hand: free list, chains and hand together are all the blocks. -/
def BlocksHeld (l : List BlockId) (s : State) : Prop := (l ++ (s.free ++ s.chains)).Perm allBlocks

theorem blocksHeld_nil (s : State) : BlocksHeld [] s ↔ BlocksInv s := Iff.rfl

/-- The chains seen from one record: its own, and the others'. -/
theorem flatMap_split {f : JobId → List BlockId} (i : JobId) :
    (allJobs.flatMap f).Perm (f i ++ (allJobs.erase i).flatMap f) := by
  have h : allJobs.Perm (i :: allJobs.erase i) := List.perm_cons_erase (List.mem_finRange i)
  simpa using h.flatMap_right f

theorem flatMap_others {f g : JobId → List BlockId} (i : JobId) (h : ∀ n, n ≠ i → f n = g n) :
    (allJobs.erase i).flatMap f = (allJobs.erase i).flatMap g := by
  have nodup : allJobs.Nodup := List.nodup_finRange 48
  apply List.flatMap_congr
  intro n hn
  exact h n ((nodup.mem_erase_iff.mp hn).1)

/-- A record's chain changes: what was in it and what is in it, the others' chains unchanged. -/
theorem setJob_chains (s : State) (i : JobId) (x : Option Job) :
    (chainOf (s.job i) ++ (s.setJob i x).chains).Perm (chainOf x ++ s.chains) := by
  unfold State.chains
  have a := flatMap_split (f := fun n => chainOf ((s.setJob i x).job n)) i
  have b := flatMap_split (f := fun n => chainOf (s.job n)) i
  have c := flatMap_others (f := fun n => chainOf ((s.setJob i x).job n)) (g := fun n => chainOf (s.job n)) i
    fun n hn => by simp [setJob_job_of_ne s i n x hn]
  simp only [setJob_job_self] at a
  rw [c] at a
  refine (List.Perm.append_left _ a).trans ?_
  refine List.Perm.trans ?_ (List.Perm.append_left _ b).symm
  rw [← List.append_assoc, ← List.append_assoc]
  exact List.Perm.append_right _ List.perm_append_comm

theorem chains_of_jobs {s t : State} (h : t.jobs = s.jobs) : t.chains = s.chains := by
  unfold State.chains State.job
  rw [h]

/-- Blocks move between hand and a chain, none is lost or gained. -/
theorem setJob_held {l l' : List BlockId} {s : State} {i : JobId} {x : Option Job}
    (h : (l ++ chainOf (s.job i)).Perm (l' ++ chainOf x)) (b : BlocksHeld l s) : BlocksHeld l' (s.setJob i x) := by
  unfold BlocksHeld at b ⊢
  refine List.Perm.trans ?_ b
  rw [setJob_free]
  have c := setJob_chains s i x
  rw [List.perm_iff_count] at h c ⊢
  intro v
  have h' := h v
  have c' := c v
  simp only [List.count_append] at h' c' ⊢
  omega

/-- An ending takes the chain in hand. -/
theorem dropped_held {l : List BlockId} {s : State} {i : JobId} {j : Job} {reason : EndReason} (live : s.job i = some j)
    (b : BlocksHeld l s) : BlocksHeld (j.allocation ++ l) (s.dropped i j reason) := by
  refine setJob_held (s := s.modDevice j.device (DevicePort.dropJob i j reason)) ?_ b
  rw [modDevice_job, live]
  show (l ++ j.allocation).Perm (j.allocation ++ l ++ [])
  rw [List.append_nil]
  exact List.perm_append_comm

theorem move_blocks {K : Kind → Prop} {l l' : List BlockId} {s s' : State} (m : Move K (l, s) (l', s'))
    (b : BlocksHeld l s) : BlocksHeld l' s' := by
  cases m with
  | kiosk | device | flag | tight | pointer | byte | contact | panel | credit => exact b
  | job hj i j k live side blocks =>
    refine setJob_held ?_ b
    rw [live]
    exact blocks
  | free hj f blocks =>
    unfold BlocksHeld at b ⊢
    refine List.Perm.trans ?_ b
    show (l' ++ (f ++ s.chains)).Perm (l ++ (s.free ++ s.chains))
    rw [← List.append_assoc, ← List.append_assoc]
    exact List.Perm.append_right _ blocks.symm
  | drop hj i j reason live => exact dropped_held live b
  | finish hj i j reason count live => exact dropped_held (reason := reason) live b
  | start hj d i may queued ready =>
    obtain ⟨j, hjob, _⟩ := ready
    unfold State.activate
    rw [hjob]
    refine setJob_held (s := s.modDevice j.device (DevicePort.takeJob j)) ?_ b
    rw [modDevice_job, hjob]
    rfl

/-! ### Spool bytes, counts -/

theorem move_memory {K : Kind → Prop} {l l' : List BlockId} {s s' : State} (m : Move K (l, s) (l', s'))
    (b : MemoryInv s) : MemoryInv s' := by
  cases m with
  | byte hb c n v => exact writeBlock_wf s c n v b
  | start hj d i may queued ready =>
    obtain ⟨j, hjob, _⟩ := ready
    unfold State.activate
    rw [hjob]
    exact b
  | _ => exact b

theorem setJob_counts {s : State} {i : JobId} {x : Option Job} (h : ∀ j, x = some j → j.ok) (b : CountsInv s) :
    CountsInv (s.setJob i x) := by
  intro n j hn
  rw [setJob_job] at hn
  split at hn
  · exact h j hn
  · exact b n j hn

theorem move_counts {K : Kind → Prop} {l l' : List BlockId} {s s' : State} (m : Move K (l, s) (l', s'))
    (b : CountsInv s) : CountsInv s' := by
  cases m with
  | job hj i j k live side blocks =>
    refine setJob_counts ?_ b
    intro x hx
    injection hx with hx
    subst hx
    exact side.2.2.2.2.2 (b i j live)
  | drop hj i j reason live => exact setJob_counts (fun x hx => absurd hx (by simp)) b
  | finish hj i j reason count live =>
    exact setJob_counts (s := s) (i := i) (x := none) (fun x hx => absurd hx (by simp)) b
  | start hj d i may queued ready =>
    obtain ⟨j, hjob, _⟩ := ready
    unfold State.activate
    rw [hjob]
    refine setJob_counts ?_ b
    intro x hx
    injection hx with hx
    subst hx
    exact b i j hjob
  | _ => exact b

/-! ### Device queues -/

/-- A job's record is changed to one bound to the same port, ACTIVE as before. -/
theorem setJob_queues {s : State} {i : JobId} {j k : Job} (live : s.job i = some j) (hd : k.device = j.device)
    (ha : k.state = .active ↔ j.state = .active) (q : QueuesInv s) : QueuesInv (s.setJob i (some k)) := by
  intro d
  obtain ⟨nodup, len, mem, act⟩ := q d
  refine ⟨nodup, len, fun n => ?_, ?_⟩
  · rw [setJob_device, mem n]
    by_cases h : n = i
    · subst h
      rw [setJob_job_self, live]
      simp [hd]
    · rw [setJob_job_of_ne s i n _ h]
  · have back : ∀ n x, (s.setJob i (some k)).job n = some x → x.device = d → x.state = .active →
        ∃ y, s.job n = some y ∧ y.device = d ∧ y.state = .active := by
      intro n x hx xd xa
      by_cases h : n = i
      · subst h
        rw [setJob_job_self] at hx
        injection hx with hx
        subst hx
        exact ⟨j, live, by rw [← hd]; exact xd, ha.mp xa⟩
      · rw [setJob_job_of_ne s i n _ h] at hx
        exact ⟨x, hx, xd, xa⟩
    intro n n' x x' hx hx' xd xd' xa xa'
    obtain ⟨y, hy, yd, ya⟩ := back n x hx xd xa
    obtain ⟨y', hy', yd', ya'⟩ := back n' x' hx' xd' xa'
    exact act n n' y y' hy hy' yd yd' ya ya'

/-- The device queues of the ports, and the job table, decide the law. -/
theorem queues_of {s t : State} (hq : ∀ d, (t.device d).queue = (s.device d).queue) (hj : t.jobs = s.jobs)
    (q : QueuesInv s) : QueuesInv t := by
  intro d
  have h : ∀ n, t.job n = s.job n := fun n => by unfold State.job; rw [hj]
  simp only [hq, h]
  exact q d

theorem setDevice_queues {s : State} {d : DeviceId} {p : DevicePort} (h : p.queue = (s.device d).queue)
    (q : QueuesInv s) : QueuesInv (s.setDevice d p) := by
  refine queues_of (s := s) (t := s.setDevice d p) (fun n => ?_) rfl q
  rw [setDevice_device]
  split
  · rename_i hn
    rw [hn, h]
  · rfl

/-- No job of a queue is ACTIVE when the port has no ACTIVE job. -/
theorem not_active_of_activeJob {s : State} {d : DeviceId} {i : JobId} {j : Job} (h : s.activeJob d = none)
    (hi : i ∈ (s.device d).queue) (hjob : s.job i = some j) : j.state ≠ .active := by
  unfold State.activeJob at h
  rw [List.find?_eq_none] at h
  have := h i hi
  rw [hjob] at this
  simpa using this

theorem activate_queues {s : State} {d : DeviceId} {i : JobId} (may : s.mayStart d = true)
    (queued : i ∈ (s.device d).queue) (ready : ∃ j, s.job i = some j ∧ j.state = .ready) (q : QueuesInv s) :
    QueuesInv (s.activate i) := by
  obtain ⟨j, hjob, _⟩ := ready
  have hd : j.device = d := by
    obtain ⟨j', hj', hd'⟩ := ((q d).2.2.1 i).mp queued
    rw [hjob] at hj'
    injection hj' with hj'
    subst hj'
    exact hd'
  have none : s.activeJob d = none := by
    unfold State.mayStart State.hasWork at may
    simp at may
    exact may.2.1.1
  unfold State.activate
  rw [hjob]
  show QueuesInv ((s.modDevice j.device (DevicePort.takeJob j)).setJob i (some { j with state := .active }))
  have q1 : QueuesInv (s.modDevice j.device (DevicePort.takeJob j)) := by
    refine setDevice_queues ?_ q
    unfold DevicePort.takeJob
    split <;> rfl
  intro e
  obtain ⟨nodup, len, mem, act⟩ := q1 e
  refine ⟨nodup, len, fun n => ?_, ?_⟩
  · rw [setJob_device, mem n]
    by_cases h : n = i
    · subst h
      rw [setJob_job_self, modDevice_job, hjob]
      simp
    · rw [setJob_job_of_ne _ i n _ h]
  · have only : ∀ n x, ((s.modDevice j.device (DevicePort.takeJob j)).setJob i (some { j with state := .active })).job n =
        some x → x.device = d → x.state = .active → n = i := by
      intro n x hx xd xa
      by_contra h
      rw [setJob_job_of_ne _ i n _ h, modDevice_job] at hx
      exact not_active_of_activeJob none (((q d).2.2.1 n).mpr ⟨x, hx, xd⟩) hx xa
    intro n n' x x' hx hx' xd xd' xa xa'
    by_cases hed : e = d
    · subst hed
      rw [only n x hx xd xa, only n' x' hx' xd' xa']
    · have keep : ∀ m y, ((s.modDevice j.device (DevicePort.takeJob j)).setJob i
          (some { j with state := .active })).job m = some y → y.device = e →
          (s.modDevice j.device (DevicePort.takeJob j)).job m = some y := by
        intro m y hy yd
        by_cases h : m = i
        · subst h
          rw [setJob_job_self] at hy
          injection hy with hy
          subst hy
          exact absurd (yd.symm.trans hd) hed
        · rw [setJob_job_of_ne _ i m _ h] at hy
          exact hy
      exact act n n' x x' (keep n x hx xd) (keep n' x' hx' xd') xd xd' xa xa'

theorem drop_queues {s : State} {i : JobId} {j : Job} {reason : EndReason} (live : s.job i = some j)
    (q : QueuesInv s) : QueuesInv (s.dropped i j reason) := by
  unfold State.dropped
  have hq : ∀ p : DevicePort, (DevicePort.dropJob i j reason p).queue = p.queue.filter fun x => x != i := by
    intro p
    unfold DevicePort.dropJob
    dsimp only
    split
    · unfold DevicePort.stopWork
      split <;> rfl
    · rfl
  intro d
  obtain ⟨nodup, len, mem, act⟩ := q d
  have queue : ((s.modDevice j.device (DevicePort.dropJob i j reason)).device d).queue =
      (s.device d).queue.filter fun x => x != i := by
    unfold State.modDevice
    rw [setDevice_device]
    split
    · rename_i h
      rw [hq, h]
    · rename_i h
      symm
      apply List.filter_eq_self.mpr
      intro n hn
      obtain ⟨x, hx, xd⟩ := (mem n).mp hn
      simp only [bne_iff_ne, ne_eq]
      intro e
      subst e
      rw [live] at hx
      injection hx with hx
      subst hx
      exact h xd.symm
  rw [setJob_device, queue]
  refine ⟨nodup.filter _, (List.length_filter_le _ _).trans len, fun n => ?_, ?_⟩
  · rw [List.mem_filter, mem n]
    by_cases h : n = i
    · subst h
      simp
    · rw [setJob_job_of_ne _ i n _ h, modDevice_job]
      simp [h]
  · intro n n' x x' hx hx' xd xd' xa xa'
    have keep : ∀ m y, ((s.modDevice j.device (DevicePort.dropJob i j reason)).setJob i none).job m = some y →
        s.job m = some y := by
      intro m y hy
      by_cases h : m = i
      · subst h
        rw [setJob_job_self] at hy
        exact absurd hy (by simp)
      · rw [setJob_job_of_ne _ i m _ h] at hy
        exact hy
    exact act n n' x x' (keep n x hx) (keep n' x' hx') xd xd' xa xa'

theorem move_queues {K : Kind → Prop} {l l' : List BlockId} {s s' : State} (m : Move K (l, s) (l', s'))
    (q : QueuesInv s) : QueuesInv s' := by
  cases m with
  | device d p h => exact setDevice_queues h.2.1 q
  | job hj i j k live side blocks => exact setJob_queues live side.2.1 side.2.2.2.2.1 q
  | drop hj i j reason live => exact drop_queues live q
  | finish hj i j reason count live => exact queues_of (fun _ => rfl) rfl (drop_queues (reason := reason) live q)
  | start hj d i may queued ready => exact activate_queues may queued ready q
  | _ => exact q

/-! ### Kiosk ports: links, caps -/

/-- The part of the law of the kiosk ports that one port alone decides. -/
def PlacesInv (s : State) : Prop := ∀ k, (s.kiosk k).linkOk ∧ (s.kiosk k).capsOk

/-- A kiosk port that keeps its link, score, count, lock, cursor, frame, quota, held place and REPLY entries, and whose
touch queue stays inside its cap, stays in order. -/
theorem KioskPort.QueuesOf.ok {K : Kind → Prop} {p q : KioskPort} (h : p.QueuesOf K q) (ok : p.linkOk ∧ p.capsOk) :
    q.linkOk ∧ q.capsOk := by
  obtain ⟨c, t, w, rfl, hc, ht, _⟩ := h
  refine ⟨ok.1, ht ok.2.1, ?_, ok.2.2.2⟩
  have := ok.2.2.1
  unfold KioskPort.replyCount at this ⊢
  rw [hc]
  exact this

theorem setKiosk_places {s : State} {k : KioskId} {p : KioskPort}
    (h : (s.kiosk k).linkOk ∧ (s.kiosk k).capsOk → p.linkOk ∧ p.capsOk) (b : PlacesInv s) :
    PlacesInv (s.setKiosk k p) := by
  intro n
  rw [setKiosk_kiosk]
  split
  · exact h (b k)
  · exact b n

theorem move_places {K : Kind → Prop} {l l' : List BlockId} {s s' : State} (m : Move K (l, s) (l', s'))
    (b : PlacesInv s) : PlacesInv s' := by
  cases m with
  | kiosk k p h => exact setKiosk_places h.1.ok b
  | finish hj i j reason count live =>
    exact fun n => (handJobEnd_queues (K := K) (s.dropped i j reason) _ n _ _ _ _ _).ok (b n)
  | credit hj i j ch limit live => exact fun n => (handCredit_queues (K := K) s _ n _ _ _).ok (b n)
  | start hj d i may queued ready =>
    obtain ⟨j, hjob, _⟩ := ready
    unfold State.activate
    rw [hjob]
    exact b
  | _ => exact b

/-! ### Kiosk ports: control queues (R125) -/

/-- R125 without the REPLY entries: one NOTICE, one CREDIT or JOB_END a slot, and no live job beside a JOB_END. -/
def EntriesInv (s : State) : Prop :=
  ∀ k, noticesIn (s.kiosk k).control ≤ 1 ∧ ∀ slot,
    creditsIn (s.kiosk k).control slot + jobEndsIn (s.kiosk k).control slot ≤ 1 ∧
      (0 < jobEndsIn (s.kiosk k).control slot → s.job (jobIx k slot) = none)

theorem jobEndWaits_iff (s : State) (k : KioskId) (slot : SlotId) :
    s.jobEndWaits k slot = true ↔ 0 < jobEndsIn (s.kiosk k).control slot := by
  unfold State.jobEndWaits jobEndsIn
  rw [List.any_eq_true, List.countP_pos_iff]

/-- R125: the entries of a control queue by kind. -/
theorem control_length (c : List ControlEntry) :
    c.length = (c.filter ControlEntry.isReply).length + noticesIn c + (creditsIn c 0 + jobEndsIn c 0) +
      (creditsIn c 1 + jobEndsIn c 1) + (creditsIn c 2 + jobEndsIn c 2) := by
  unfold noticesIn creditsIn jobEndsIn
  induction c with
  | nil => rfl
  | cons e rest ih =>
    have three : ∀ t : SlotId, t = 0 ∨ t = 1 ∨ t = 2 := by decide
    cases e with
    | reply | notice =>
      simp only [List.length_cons, List.filter_cons, List.countP_cons, ControlEntry.isReply, ControlEntry.isNotice,
        ControlEntry.isCreditFor, ControlEntry.isJobEndFor, if_true, Bool.false_eq_true, if_false]
      omega
    | credit ch t | jobEnd ch t =>
      rcases three t with h | h | h <;> subst h <;>
      · simp [ControlEntry.isReply, ControlEntry.isNotice, ControlEntry.isCreditFor, ControlEntry.isJobEndFor]
        omega

/-- The two halves of the law of the kiosk ports; the cap of 16 entries follows from the others. -/
theorem ports_iff (s : State) : PortsInv s ↔ PlacesInv s ∧ EntriesInv s := by
  constructor
  · rintro ⟨a, b⟩
    exact ⟨fun k => ⟨(a k).1, (a k).2.1⟩, fun k => ⟨(a k).2.2.2.1, fun slot => ⟨(a k).2.2.2.2 slot, fun h =>
      b k slot ((jobEndWaits_iff s k slot).mpr h)⟩⟩⟩
  · rintro ⟨a, b⟩
    refine ⟨fun k => ⟨(a k).1, (a k).2, ?_, (b k).1, fun slot => ((b k).2 slot).1⟩, fun k slot h =>
      ((b k).2 slot).2 ((jobEndWaits_iff s k slot).mp h)⟩
    have replies := (a k).2.2.1
    have notices := (b k).1
    have h0 := ((b k).2 0).1
    have h1 := ((b k).2 1).1
    have h2 := ((b k).2 2).1
    have len := control_length (s.kiosk k).control
    unfold KioskPort.replyCount at replies
    unfold Config.replyCap at replies
    unfold Config.controlCap
    omega

theorem entries_of {s t : State} (hk : ∀ k, NoNewEntries (s.kiosk k).control (t.kiosk k).control)
    (hj : ∀ i, s.job i = none → t.job i = none) (b : EntriesInv s) : EntriesInv t := by
  intro k
  obtain ⟨n, e⟩ := hk k
  refine ⟨n (b k).1, fun slot => ?_⟩
  obtain ⟨c, f⟩ := (b k).2 slot
  have := e slot
  exact ⟨by omega, fun h => hj _ (f (by omega))⟩

theorem setKiosk_entries {s : State} {k : KioskId} {p : KioskPort} (h : NoNewEntries (s.kiosk k).control p.control)
    (b : EntriesInv s) : EntriesInv (s.setKiosk k p) := by
  refine entries_of (s := s) (fun n => ?_) (fun _ => id) b
  rw [setKiosk_kiosk]
  split
  · rename_i e
    subst e
    exact h
  · exact .rfl

/-- A live record's change makes no FREE record live. -/
theorem setJob_keepsFree {s : State} {i : JobId} {j : Job} (live : s.job i = some j) (x : Option Job) :
    ∀ n, s.job n = none → (s.setJob i x).job n = none := by
  intro n h
  rw [setJob_job]
  split
  · rename_i e
    rw [e, live] at h
    cases h
  · exact h

/-- A record's index from its port and slot. -/
theorem jobIx_parts (i : JobId) : jobIx (jobKiosk i) (jobSlot i) = i := by
  apply Fin.ext
  show i.val / 3 * 3 + i.val % 3 = i.val
  omega

theorem jobIx_inj {i : JobId} {k : KioskId} {slot : SlotId} (h : jobIx k slot = i) :
    jobKiosk i = k ∧ jobSlot i = slot := by
  subst h
  refine ⟨Fin.ext ?_, Fin.ext ?_⟩
  · show (k.val * 3 + slot.val) / 3 = k.val
    omega
  · show (k.val * 3 + slot.val) % 3 = slot.val
    omega

/-- R127: a CREDIT for a live job. -/
theorem handCredit_entries {s : State} {i : JobId} {j : Job} (live : s.job i = some j) (ch : Byte) (limit : Nat)
    (b : EntriesInv s) : EntriesInv (s.handCredit (jobKiosk i) ch (jobSlot i) limit) := by
  have none : jobEndsIn (s.kiosk (jobKiosk i)).control (jobSlot i) = 0 := by
    by_contra h
    have := ((b (jobKiosk i)).2 (jobSlot i)).2 (by omega)
    rw [jobIx_parts, live] at this
    cases this
  unfold State.handCredit State.modKiosk
  dsimp only
  split
  · refine setKiosk_entries ?_ b
    simp only [NoNewEntries, noticesIn, creditsIn, jobEndsIn]
    refine ⟨fun h => ?_, fun slot => ⟨?_, ?_⟩⟩ <;> rw [updateCredit_countP _ _ _ fun _ _ _ => rfl]
    exact h
  · rename_i hn
    intro k
    rw [setKiosk_kiosk]
    split
    · rename_i e
      subst e
      refine ⟨?_, fun slot => ?_⟩
      · have := (b (jobKiosk i)).1
        unfold noticesIn at this ⊢
        simpa [List.countP_append, ControlEntry.isNotice] using this
      · obtain ⟨c, f⟩ := (b (jobKiosk i)).2 slot
        have zero : creditsIn (s.kiosk (jobKiosk i)).control (jobSlot i) = 0 := by
          unfold creditsIn
          rw [List.countP_eq_zero]
          simpa using hn
        have hc : creditsIn ((s.kiosk (jobKiosk i)).control ++ [.credit ch (jobSlot i) limit]) slot =
            creditsIn (s.kiosk (jobKiosk i)).control slot + if jobSlot i = slot then 1 else 0 := by
          simp [creditsIn, List.countP_append, List.countP_cons, ControlEntry.isCreditFor]
        have he : jobEndsIn ((s.kiosk (jobKiosk i)).control ++ [.credit ch (jobSlot i) limit]) slot =
            jobEndsIn (s.kiosk (jobKiosk i)).control slot := by
          simp [jobEndsIn, List.countP_append, ControlEntry.isJobEndFor]
        dsimp only
        rw [hc, he]
        refine ⟨?_, f⟩
        split
        · rename_i e
          subst e
          omega
        · exact c
    · exact b k

/-- R128: a JOB_END of a record that has just been freed. -/
theorem finish_entries {s : State} {i : JobId} {j : Job} {reason : EndReason} (live : s.job i = some j) (ch : Byte)
    (count : Nat) (le : Bool) (b : EntriesInv s) :
    EntriesInv ((s.dropped i j reason).handJobEnd (jobKiosk i) ch (jobSlot i) reason count le) := by
  have none : jobEndsIn (s.kiosk (jobKiosk i)).control (jobSlot i) = 0 := by
    by_contra h
    have := ((b (jobKiosk i)).2 (jobSlot i)).2 (by omega)
    rw [jobIx_parts, live] at this
    cases this
  have freed : ∀ n, s.job n = Option.none → (s.dropped i j reason).job n = Option.none :=
    setJob_keepsFree (s := s.modDevice j.device (DevicePort.dropJob i j reason)) live _
  intro k
  unfold State.handJobEnd
  rw [modKiosk_kiosk]
  simp only [modKiosk_job]
  split
  · rename_i e
    subst e
    dsimp only
    obtain ⟨hn, hs⟩ := b (jobKiosk i)
    have keep : ((s.kiosk (jobKiosk i)).control.filter fun e => !e.isCreditFor (jobSlot i)).Sublist
        (s.kiosk (jobKiosk i)).control := List.filter_sublist
    have gone : creditsIn ((s.kiosk (jobKiosk i)).control.filter fun e => !e.isCreditFor (jobSlot i)) (jobSlot i) =
        0 := by
      unfold creditsIn
      rw [List.countP_eq_zero]
      intro e he
      simpa using (List.mem_filter.mp he).2
    change noticesIn ((s.kiosk (jobKiosk i)).control.filter _ ++ _) ≤ 1 ∧ ∀ slot,
      creditsIn ((s.kiosk (jobKiosk i)).control.filter _ ++ _) slot +
        jobEndsIn ((s.kiosk (jobKiosk i)).control.filter _ ++ _) slot ≤ 1 ∧
      (0 < jobEndsIn ((s.kiosk (jobKiosk i)).control.filter _ ++ _) slot → _)
    generalize ((s.kiosk (jobKiosk i)).control.filter fun e => !e.isCreditFor (jobSlot i)) = c at keep gone
    obtain ⟨k1, k2⟩ := NoNewEntries.sublist keep
    refine ⟨?_, fun slot => ?_⟩
    · have := k1 hn
      unfold noticesIn at this ⊢
      simpa [List.countP_append, ControlEntry.isNotice] using this
    · have hc : creditsIn (c ++ [.jobEnd ch (jobSlot i) reason count le]) slot = creditsIn c slot := by
        simp [creditsIn, List.countP_append, ControlEntry.isCreditFor]
      have he : jobEndsIn (c ++ [.jobEnd ch (jobSlot i) reason count le]) slot =
          jobEndsIn c slot + if jobSlot i = slot then 1 else 0 := by
        simp [jobEndsIn, List.countP_append, List.countP_cons, ControlEntry.isJobEndFor]
      rw [hc, he]
      obtain ⟨m1, m2⟩ := k2 slot
      obtain ⟨s1, s2⟩ := hs slot
      split
      · rename_i e
        subst e
        refine ⟨by omega, fun _ => ?_⟩
        rw [jobIx_parts]
        exact setJob_job_self _ _ _
      · exact ⟨by omega, fun h => freed _ (s2 (by omega))⟩
  · refine ⟨(b k).1, fun slot => ⟨((b k).2 slot).1, fun h => freed _ (((b k).2 slot).2 h)⟩⟩

theorem move_entries {K : Kind → Prop} {l l' : List BlockId} {s s' : State} (m : Move K (l, s) (l', s'))
    (b : EntriesInv s) : EntriesInv s' := by
  cases m with
  | kiosk k p h => exact setKiosk_entries h.2 b
  | job hj i j k live side blocks => exact entries_of (s := s) (fun _ => .rfl) (setJob_keepsFree live _) b
  | drop hj i j reason live =>
    exact entries_of (s := s) (fun _ => .rfl)
      (setJob_keepsFree (s := s.modDevice j.device (DevicePort.dropJob i j reason)) live _) b
  | finish hj i j reason count live => exact finish_entries live _ _ _ b
  | credit hj i j ch limit live => exact handCredit_entries live ch limit b
  | start hj d i may queued ready =>
    obtain ⟨j, hjob, _⟩ := ready
    unfold State.activate
    rw [hjob]
    exact entries_of (s := s) (fun _ => .rfl)
      (setJob_keepsFree (s := s.modDevice j.device (DevicePort.takeJob j)) hjob _) b
  | _ => exact b

/-! ### Tables -/

theorem Panel.SideOf.ok {p q : Panel} (h : p.SideOf q) (ok : p.ok) : q.ok := by
  obtain ⟨pr, m, c, w, rfl, hm, hc⟩ := h
  obtain ⟨a1, a2, a3, a4, a5, a6, a7, a8, a9, a10, a11, a12⟩ := ok
  exact ⟨a1, a2, a3, a4, a5, a6, a7, a8, a9, a10, hm a11, hc a12⟩

theorem setPanel_tables {s : State} {p : PanelId} {q : Panel} (h : (s.panel p).ok → q.ok) (b : TablesInv s) :
    TablesInv (s.setPanel p q) := by
  obtain ⟨b1, b2, b3, b4, b5⟩ := b
  refine ⟨b1, fun n => ?_, b3, b4, b5⟩
  rw [setPanel_panel]
  split
  · exact h (b2 p)
  · exact b2 n

theorem setDevice_tables {s : State} {d : DeviceId} {p : DevicePort} (h : (s.device d).record.ok → p.record.ok)
    (b : TablesInv s) : TablesInv (s.setDevice d p) := by
  obtain ⟨b1, b2, b3, b4, b5⟩ := b
  refine ⟨b1, b2, b3, fun n => ?_, b5⟩
  rw [setDevice_device]
  split
  · exact h (b4 d)
  · exact b4 n

theorem dropJob_record (i : JobId) (j : Job) (reason : EndReason) (p : DevicePort) :
    (DevicePort.dropJob i j reason p).record = p.record := by
  unfold DevicePort.dropJob
  dsimp only
  split
  · unfold DevicePort.stopWork
    split <;> rfl
  · rfl

theorem takeJob_record (j : Job) (p : DevicePort) : (DevicePort.takeJob j p).record = p.record := by
  unfold DevicePort.takeJob
  split <;> rfl

theorem move_tables {K : Kind → Prop} {l l' : List BlockId} {s s' : State} (m : Move K (l, s) (l', s'))
    (b : TablesInv s) : TablesInv s' := by
  cases m with
  | device d p h => exact setDevice_tables (by rw [h.1]; exact id) b
  | panel ht p q h => exact setPanel_tables h.ok b
  | drop hj i j reason live =>
    exact setDevice_tables (s := s) (d := j.device) (p := DevicePort.dropJob i j reason (s.device j.device))
      (by rw [dropJob_record]; exact id) b
  | finish hj i j reason count live =>
    exact setDevice_tables (s := s) (d := j.device) (p := DevicePort.dropJob i j reason (s.device j.device))
      (by rw [dropJob_record]; exact id) b
  | start hj d i may queued ready =>
    obtain ⟨j, hjob, _⟩ := ready
    unfold State.activate
    rw [hjob]
    exact setDevice_tables (s := s) (d := j.device) (p := DevicePort.takeJob j (s.device j.device))
      (by rw [takeJob_record]; exact id) b
  | _ => exact b

/-- No move touches the commands that wait. -/
theorem move_pending {K : Kind → Prop} {l l' : List BlockId} {s s' : State} (m : Move K (l, s) (l', s')) :
    s'.pending = s.pending := by
  cases m with
  | start hj d i may queued ready =>
    obtain ⟨j, hjob, _⟩ := ready
    unfold State.activate
    rw [hjob]
    rfl
  | _ => rfl

end Sys2Proof.Machine
end

