-- ==== Sys2Proof/Laws/Steps.lean ====
section
/-! SUPPORT. Every command as a row of steps: the moves of Moves.lean, and the few changes that a command makes beside
them. A law that each of these keeps is kept by every command. -/

namespace Sys2Proof.Machine

/-- Every part of State may change. -/
def anyKind : Kind → Prop := fun _ => True

/-- One step of a command. The list holds the blocks in hand. -/
inductive Wide : List BlockId × State → List BlockId × State → Prop where
  | base {a b} (m : Move anyKind a b) : Wide a b
  | kiosk {l s} (k : KioskId) (p : KioskPort)
      (h : (s.kiosk k).linkOk ∧ (s.kiosk k).capsOk → p.linkOk ∧ p.capsOk)
      (e : NoNewEntries (s.kiosk k).control p.control) : Wide (l, s) (l, s.setKiosk k p)
  | device {l s} (d : DeviceId) (p : DevicePort) (hq : p.queue = (s.device d).queue)
      (hr : (s.device d).record.ok → p.record.ok) : Wide (l, s) (l, s.setDevice d p)
  | route {l s} (e : RouteId) (x : RouteEntry) (h : x.ok) : Wide (l, s) (l, s.setRoute e x)
  | panel {l s} (p : PanelId) (x : Panel) (h : (s.panel p).ok → x.ok) : Wide (l, s) (l, s.setPanel p x)
  | zone {l s} (z : ZoneId) (x : Zone) (h : x.ok) : Wide (l, s) (l, s.setZone z x)
  | spoolRecord {l s} (r : SpoolRecord) (h : r.ok) : Wide (l, s) (l, s.setSpoolRecord r)
  | enrol {l s} (i : JobId) (j : Job) (d : DeviceId) (free : s.job i = none)
      (calm : s.jobEndWaits (jobKiosk i) (jobSlot i) = false) (ok : j.ok) (chain : j.allocation = [])
      (idle : j.state ≠ .active) (bound : j.device = d) (room : (s.device d).queue.length < Config.queueCap) :
      Wide (l, s) (l, (s.setJob i (some j)).modDevice d fun p => { p with queue := p.queue ++ [i] })
  | rest {l s} (t : State) (hk : t.kiosks = s.kiosks) (hd : t.devices = s.devices) (hj : t.jobs = s.jobs)
      (hr : t.routes = s.routes) (hp : t.panels = s.panels) (hz : t.zones = s.zones) (hf : t.free = s.free)
      (hm : t.mem = s.mem) (hs : t.spoolRecord = s.spoolRecord) (hq : t.pending = s.pending) : Wide (l, s) (l, t)
  | reset {s} : Wide ([], s) ([], s.resetSwitch)
  | power {s} : Wide ([], s) ([], s.poweredOn)
  | start {l s} : Wide (l, s) (l, s.started)

/-- A row of steps. -/
def Wides (l : List BlockId) (s : State) (l' : List BlockId) (s' : State) : Prop :=
  Relation.ReflTransGen Wide (l, s) (l', s')

namespace Wides

variable {l l' l'' : List BlockId} {s s' s'' : State}

theorem refl : Wides l s l s := Relation.ReflTransGen.refl

theorem of (h : Wide (l, s) (l', s')) : Wides l s l' s' := Relation.ReflTransGen.single h

theorem trans (h : Wides l s l' s') (g : Wides l' s' l'' s'') : Wides l s l'' s'' :=
  Relation.ReflTransGen.trans h g

theorem moves (h : Moves anyKind l s l' s') : Wides l s l' s' :=
  Relation.ReflTransGen.mono (fun _ _ m => Wide.base m) _ _ h

/-- What every step keeps, a row of steps keeps. -/
theorem keeps {P : List BlockId → State → Prop} (step : ∀ l s l' s', Wide (l, s) (l', s') → P l s → P l' s')
    (h : Wides l s l' s') (start : P l s) : P l' s' := by
  have key : ∀ a b : List BlockId × State, Relation.ReflTransGen Wide a b → P a.1 a.2 → P b.1 b.2 := by
    intro a b r
    induction r with
    | refl => exact id
    | tail _ last ih => exact fun x => step _ _ _ _ last (ih x)
  exact key _ _ h start

theorem kiosk (k : KioskId) (f : KioskPort → KioskPort)
    (h : (s.kiosk k).linkOk ∧ (s.kiosk k).capsOk → (f (s.kiosk k)).linkOk ∧ (f (s.kiosk k)).capsOk)
    (e : NoNewEntries (s.kiosk k).control (f (s.kiosk k)).control := by exact .rfl) :
    Wides l s l (s.modKiosk k f) := of (.kiosk k _ h e)

theorem device (d : DeviceId) (f : DevicePort → DevicePort) (hq : ∀ p, (f p).queue = p.queue)
    (hr : ∀ p, (f p).record = p.record) : Wides l s l (s.modDevice d f) :=
  of (.device d _ (hq _) (by rw [hr]; exact id))

end Wides

/-! ### What every step keeps -/

theorem table_of_kiosks {s t : State} (h : t.kiosks = s.kiosks) (k : KioskId) : t.kiosk k = s.kiosk k := by
  unfold State.kiosk; rw [h]

theorem table_of_devices {s t : State} (h : t.devices = s.devices) (d : DeviceId) : t.device d = s.device d := by
  unfold State.device; rw [h]

theorem started_kiosk (s : State) (k : KioskId) :
    s.started.kiosk k = KioskPort.startAt (s.store.contents.getD (blankCode, 2)).2 (s.kiosk k) := mapTable_get _ _ _

theorem poweredOn_device (s : State) (d : DeviceId) : s.poweredOn.device d = DevicePort.powerOn (s.device d) :=
  mapTable_get _ _ _

theorem reset_kiosk (k : KioskId) : State.reset.kiosk k = KioskPort.reset := by
  unfold State.kiosk State.reset
  simp

theorem reset_job (i : JobId) : State.reset.job i = none := by
  unfold State.job State.reset
  simp

theorem poweredOn_kiosk (s : State) (k : KioskId) : s.poweredOn.kiosk k = KioskPort.reset := reset_kiosk k

theorem poweredOn_job (s : State) (i : JobId) : s.poweredOn.job i = none := reset_job i

theorem resetSwitch_free (s : State) : s.resetSwitch.free = allBlocks := by
  simp only [State.resetSwitch]

theorem poweredOn_free (s : State) : s.poweredOn.free = allBlocks := by
  simp only [State.poweredOn, State.reset]

theorem resetSwitch_job (s : State) (i : JobId) : s.resetSwitch.job i = none := by
  unfold State.job State.resetSwitch
  simp

theorem resetSwitch_kiosk (s : State) (k : KioskId) : s.resetSwitch.kiosk k = (s.kiosk k).switchReset := by
  unfold State.kiosk State.resetSwitch
  exact mapTable_get _ _ _

theorem resetSwitch_device (s : State) (d : DeviceId) : s.resetSwitch.device d = (s.device d).switchReset := by
  unfold State.device State.resetSwitch
  exact mapTable_get _ _ _

theorem resetSwitch_panel (s : State) (p : PanelId) : s.resetSwitch.panel p = (s.panel p).switchReset := by
  unfold State.panel State.resetSwitch
  exact mapTable_get _ _ _

theorem chains_of_free {s : State} (h : ∀ i, s.job i = none) : s.chains = [] := by
  unfold State.chains
  simp [h, chainOf]

theorem wide_blocks {l l' : List BlockId} {s s' : State} (m : Wide (l, s) (l', s')) (b : BlocksHeld l s) :
    BlocksHeld l' s' := by
  cases m with
  | base m => exact move_blocks m b
  | kiosk | device | route | panel | zone | spoolRecord => exact b
  | enrol i j d free calm ok chain idle bound room =>
    exact setJob_held (s := s) (l := l) (l' := l) (i := i) (x := some j) (by rw [free]; simp [chainOf, chain]) b
  | rest t hk hd hj hr hp hz hf hm hs hq =>
    unfold BlocksHeld
    rw [hf, chains_of_jobs hj]
    exact b
  | reset =>
    unfold BlocksHeld
    rw [chains_of_free (resetSwitch_job s), List.append_nil, List.nil_append, resetSwitch_free]
  | power =>
    unfold BlocksHeld
    rw [chains_of_free (poweredOn_job s), List.append_nil, List.nil_append, poweredOn_free]
  | start => exact b

theorem wide_memory {l l' : List BlockId} {s s' : State} (m : Wide (l, s) (l', s')) (b : MemoryInv s) :
    MemoryInv s' := by
  cases m with
  | base m => exact move_memory m b
  | rest t hk hd hj hr hp hz hf hm hs hq =>
    unfold MemoryInv
    rw [hm]
    exact b
  | power => exact b
  | _ => exact b

theorem wide_counts {l l' : List BlockId} {s s' : State} (m : Wide (l, s) (l', s')) (b : CountsInv s) :
    CountsInv s' := by
  cases m with
  | base m => exact move_counts m b
  | enrol i j d free calm ok chain idle bound room =>
    exact setJob_counts (s := s) (x := some j) (fun x hx => by injection hx with hx; subst hx; exact ok) b
  | rest t hk hd hj hr hp hz hf hm hs hq =>
    intro i j hi
    refine b i j ?_
    unfold State.job at hi ⊢
    rw [← hj]
    exact hi
  | reset =>
    intro i j hi
    rw [resetSwitch_job] at hi
    exact absurd hi (by simp)
  | power =>
    intro i j hi
    rw [poweredOn_job] at hi
    exact absurd hi (by simp)
  | _ => exact b

/-- Empty queues over FREE records keep the law of the device queues. -/
theorem queues_of_empty {s : State} (hq : ∀ d, (s.device d).queue = []) (hj : ∀ i, s.job i = none) : QueuesInv s := by
  intro d
  rw [hq]
  refine ⟨List.nodup_nil, Nat.zero_le _, fun i => by simp [hj], fun i i' j j' h => ?_⟩
  rw [hj] at h
  exact absurd h (by simp)

theorem admit_queues {s : State} {i : JobId} {j : Job} (free : s.job i = none) (idle : j.state ≠ .active)
    (room : (s.device j.device).queue.length < Config.queueCap) (q : QueuesInv s) :
    QueuesInv ((s.setJob i (some j)).modDevice j.device fun p => { p with queue := p.queue ++ [i] }) := by
  have fresh : ∀ d, i ∉ (s.device d).queue := by
    intro d hi
    obtain ⟨x, hx, _⟩ := ((q d).2.2.1 i).mp hi
    rw [free] at hx
    exact absurd hx (by simp)
  intro d
  obtain ⟨nodup, len, mem, act⟩ := q d
  have old : ∀ n x, ((s.setJob i (some j)).modDevice j.device fun p => { p with queue := p.queue ++ [i] }).job n =
      some x → x.state = .active → s.job n = some x := by
    intro n x hx xa
    rw [modDevice_job] at hx
    by_cases h : n = i
    · subst h
      rw [setJob_job_self] at hx
      injection hx with hx
      subst hx
      exact absurd xa idle
    · rwa [setJob_job_of_ne s i n _ h] at hx
  refine ⟨?_, ?_, fun n => ?_, fun n n' x x' hx hx' xd xd' xa xa' =>
    act n n' x x' (old n x hx xa) (old n' x' hx' xa') xd xd' xa xa'⟩
  · unfold State.modDevice
    rw [setDevice_device]
    split
    · rw [setJob_device]
      rename_i h
      subst h
      exact List.nodup_append.mpr ⟨nodup, List.nodup_singleton i, fun a ha b hb => by
        simp only [List.mem_singleton] at hb
        intro e
        subst e
        subst hb
        exact fresh _ ha⟩
    · exact nodup
  · unfold State.modDevice
    rw [setDevice_device]
    split
    · rw [setJob_device]
      simp only [List.length_append, List.length_singleton]
      exact room
    · exact len
  · unfold State.modDevice
    rw [setDevice_device, setDevice_job]
    by_cases h : n = i
    · subst h
      rw [setJob_job_self]
      split
      · rename_i hd
        simp [hd]
      · rename_i hd
        rw [setJob_device]
        refine ⟨fun hn => absurd hn (fresh d), fun ⟨x, hx, xd⟩ => ?_⟩
        injection hx with hx
        subst hx
        exact absurd xd.symm hd
    · rw [setJob_job_of_ne s i n _ h, ← mem n]
      split
      · rename_i hd
        rw [setJob_device]
        subst hd
        simp [h]
      · rfl

theorem wide_queues {l l' : List BlockId} {s s' : State} (m : Wide (l, s) (l', s')) (q : QueuesInv s) :
    QueuesInv s' := by
  cases m with
  | base m => exact move_queues m q
  | device d p hq hr => exact setDevice_queues hq q
  | enrol i j d free calm ok chain idle bound room =>
    subst bound
    exact admit_queues free idle room q
  | rest t hk hd hj hr hp hz hf hm hs hq =>
    exact queues_of (fun d => by rw [table_of_devices hd]) hj q
  | reset =>
    exact queues_of_empty (fun d => by rw [resetSwitch_device]; rfl) (resetSwitch_job s)
  | power => exact queues_of_empty (fun d => by rw [poweredOn_device]; rfl) (poweredOn_job s)
  | _ => exact q

theorem KioskPort.reset_ok : KioskPort.reset.linkOk ∧ KioskPort.reset.capsOk := by
  exact ⟨⟨by decide, rfl⟩, by decide, by decide, rfl, by decide⟩

theorem KioskPort.switchReset_ok {p : KioskPort} (h : p.linkOk ∧ p.capsOk) :
    p.switchReset.linkOk ∧ p.switchReset.capsOk :=
  ⟨⟨Nat.zero_le _, rfl⟩, Nat.zero_le _, Nat.zero_le _, rfl, h.2.2.2.2⟩

theorem wide_places {l l' : List BlockId} {s s' : State} (m : Wide (l, s) (l', s')) (b : PlacesInv s) :
    PlacesInv s' := by
  cases m with
  | base m => exact move_places m b
  | kiosk k p h => exact setKiosk_places h b
  | rest t hk hd hj hr hp hz hf hm hs hq =>
    intro k
    rw [table_of_kiosks hk]
    exact b k
  | reset =>
    intro k
    rw [resetSwitch_kiosk]
    exact KioskPort.switchReset_ok (b k)
  | power =>
    intro k
    rw [poweredOn_kiosk]
    exact KioskPort.reset_ok
  | start =>
    intro k
    rw [started_kiosk]
    exact b k
  | _ => exact b

/-- Empty control queues keep the law of their entries. -/
theorem entries_of_empty {s : State} (h : ∀ k, (s.kiosk k).control = []) : EntriesInv s := by
  intro k
  rw [h]
  exact ⟨Nat.zero_le _, fun _ => ⟨Nat.zero_le _, fun x => absurd x (by simp [jobEndsIn])⟩⟩

theorem wide_entries {l l' : List BlockId} {s s' : State} (m : Wide (l, s) (l', s')) (b : EntriesInv s) :
    EntriesInv s' := by
  cases m with
  | base m => exact move_entries m b
  | kiosk k p h e => exact setKiosk_entries e b
  | enrol i j d free calm ok chain idle bound room =>
    intro k
    refine ⟨(b k).1, fun slot => ⟨((b k).2 slot).1, fun h => ?_⟩⟩
    show (s.setJob i (some j)).job (jobIx k slot) = none
    rw [setJob_job]
    split
    · rename_i e
      obtain ⟨rfl, rfl⟩ := jobIx_inj e
      have := (jobEndWaits_iff s (jobKiosk i) (jobSlot i)).mpr h
      rw [calm] at this
      cases this
    · exact ((b k).2 slot).2 h
  | rest t hk hd hj hr hp hz hf hm hs hq =>
    refine entries_of (s := s) (fun k => ?_) (fun i h => ?_) b
    · rw [table_of_kiosks hk]
      exact .rfl
    · unfold State.job at h ⊢
      rw [hj]
      exact h
  | reset => exact entries_of_empty fun k => by rw [resetSwitch_kiosk]; rfl
  | power => exact entries_of_empty fun k => by rw [poweredOn_kiosk]; rfl
  | start =>
    refine entries_of (s := s) (fun k => ?_) (fun _ => id) b
    rw [started_kiosk]
    exact .rfl
  | _ => exact b

/-- R124–R126, R144–R147: every step keeps the kiosk ports in order. -/
theorem wide_ports {l l' : List BlockId} {s s' : State} (m : Wide (l, s) (l', s')) (b : PortsInv s) : PortsInv s' :=
  have h := (ports_iff s).mp b
  (ports_iff s').mpr ⟨wide_places m h.1, wide_entries m h.2⟩

theorem Panel.switchReset_ok {p : Panel} (h : p.ok) : p.switchReset.ok := by
  obtain ⟨a1, a2, a3, a4, a5, a6, a7, a8, a9, a10, _, _⟩ := h
  exact ⟨a1, a2, a3, a4, a5, a6, a7, a8, a9, a10, Nat.zero_le _, Nat.zero_le _⟩

theorem DeviceRecord.reset_ok : DeviceRecord.reset.ok := by
  unfold DeviceRecord.ok oneToByte
  decide

theorem reset_tables : TablesInv State.reset := by
  refine ⟨fun e => ?_, fun p => ?_, fun z => ?_, fun d => ?_, ?_⟩
  · unfold State.route State.reset RouteEntry.ok
    simp [RouteEntry.reset]
  · unfold State.panel State.reset
    simp only [Fin.getElem_fin, Vector.getElem_replicate]
    unfold Panel.ok
    decide
  · unfold State.zone State.reset
    simp only [Fin.getElem_fin, Vector.getElem_replicate]
    unfold Zone.ok
    decide
  · unfold State.device State.reset
    simp only [Fin.getElem_fin, Vector.getElem_replicate]
    exact DeviceRecord.reset_ok
  · unfold SpoolRecord.ok
    decide

theorem restartAtn_record (p : DevicePort) : (DevicePort.restartAtn p).record = p.record := by
  unfold DevicePort.restartAtn
  split
  · split <;> rfl
  · rfl

theorem restartAtn_queue (p : DevicePort) : (DevicePort.restartAtn p).queue = p.queue := by
  unfold DevicePort.restartAtn
  split
  · split <;> rfl
  · rfl

theorem wide_tables {l l' : List BlockId} {s s' : State} (m : Wide (l, s) (l', s')) (b : TablesInv s) :
    TablesInv s' := by
  cases m with
  | base m => exact move_tables m b
  | device d p hq hr => exact setDevice_tables hr b
  | route e x h =>
    refine ⟨fun n => ?_, b.2⟩
    rw [setRoute_route]
    split
    · exact h
    · exact b.1 n
  | panel p x h => exact setPanel_tables h b
  | zone z x h =>
    refine ⟨b.1, b.2.1, fun n => ?_, b.2.2.2⟩
    rw [setZone_zone]
    split
    · exact h
    · exact b.2.2.1 n
  | spoolRecord r h => exact ⟨b.1, b.2.1, b.2.2.1, b.2.2.2.1, h⟩
  | enrol i j d free calm ok chain idle bound room =>
    exact setDevice_tables (s := s.setJob i (some j)) (d := d)
      (p := { ((s.setJob i (some j)).device d) with queue := ((s.setJob i (some j)).device d).queue ++ [i] }) id b
  | rest t hk hd hj hr hp hz hf hm hs hq =>
    obtain ⟨b1, b2, b3, b4, b5⟩ := b
    refine ⟨fun e => ?_, fun p => ?_, fun z => ?_, fun d => ?_, by rw [hs]; exact b5⟩
    · have := b1 e
      unfold State.route at this ⊢
      rw [hr]; exact this
    · have := b2 p
      unfold State.panel at this ⊢
      rw [hp]; exact this
    · have := b3 z
      unfold State.zone at this ⊢
      rw [hz]; exact this
    · rw [table_of_devices hd]; exact b4 d
  | reset =>
    obtain ⟨b1, b2, b3, b4, b5⟩ := b
    refine ⟨b1, fun p => ?_, b3, fun d => ?_, b5⟩
    · rw [resetSwitch_panel]; exact Panel.switchReset_ok (b2 p)
    · rw [resetSwitch_device]
      show (DevicePort.restartAtn _).record.ok
      rw [restartAtn_record]
      exact b4 d
  | power =>
    obtain ⟨r1, r2, r3, r4, r5⟩ := reset_tables
    refine ⟨r1, r2, r3, fun d => ?_, r5⟩
    rw [poweredOn_device]
    exact DeviceRecord.reset_ok
  | _ => exact b

/-- No step touches the commands that wait. -/
theorem wide_pending {l l' : List BlockId} {s s' : State} (m : Wide (l, s) (l', s')) : s'.pending = s.pending := by
  cases m with
  | base m => exact move_pending m
  | rest t hk hd hj hr hp hz hf hm hs hq => exact hq
  | _ => rfl

end Sys2Proof.Machine
end

