-- ==== Sys2Proof/Laws/Commands.lean ====
section
/-! SUPPORT. Every command answers with a next state, and reaches it by a row of the steps of Steps.lean. -/

namespace Sys2Proof.Machine

section
variable (l : List BlockId) (s : State)

/-- A change of the flags, the notice registers, the store, the contacts or the free byte counter alone. -/
theorem Wides.rest (t : State) (hk : t.kiosks = s.kiosks) (hd : t.devices = s.devices) (hj : t.jobs = s.jobs)
    (hr : t.routes = s.routes) (hp : t.panels = s.panels) (hz : t.zones = s.zones) (hf : t.free = s.free)
    (hm : t.mem = s.mem) (hs : t.spoolRecord = s.spoolRecord) (hq : t.pending = s.pending) : Wides l s l t :=
  .of (.rest t hk hd hj hr hp hz hf hm hs hq)

theorem advanceFree_wides (n : Nat) : Wides l s l (s.advanceFree n) := .rest l s _ rfl rfl rfl rfl rfl rfl rfl rfl rfl rfl

theorem setFlags_wides (w : FlagSet) : Wides l s l (s.setFlags w) := .rest l s _ rfl rfl rfl rfl rfl rfl rfl rfl rfl rfl

theorem setNotice_wides (p : Option KioskId) (w : FlagSet) : Wides l s l (s.setNotice p w) :=
  .rest l s _ rfl rfl rfl rfl rfl rfl rfl rfl rfl rfl

theorem setStore_wides (st : Store) : Wides l s l (s.setStore st) := .rest l s _ rfl rfl rfl rfl rfl rfl rfl rfl rfl rfl

theorem loseOwner_wides (k : KioskId) : Wides l s l (s.loseOwner k) := .rest l s _ rfl rfl rfl rfl rfl rfl rfl rfl rfl rfl

theorem raise_wides (f : Flag) : Wides l s l (s.raise f) := .moves (raise_moves l s f)

/-! ### Kiosk port -/

theorem latchKiosk_wides (k : KioskId) (c : KioskCause) : Wides l s l (s.latchKiosk k c) := .kiosk k _ id

theorem decreaseScore_ok {p : KioskPort} (h : p.linkOk ∧ p.capsOk) :
    p.decreaseScore.linkOk ∧ p.decreaseScore.capsOk := by
  refine ⟨?_, h.2⟩
  have hl := h.1
  unfold KioskPort.linkOk at hl ⊢
  unfold KioskPort.decreaseScore
  dsimp only
  cases hlink : p.link
  · simp only [hlink, reduceCtorEq, false_and, if_false] at hl ⊢
    exact ⟨by omega, hl.2⟩
  · simp only [hlink, true_and] at hl ⊢
    split <;> rename_i hx <;> split at hx <;> first | (simp_all; done) | (simp_all; omega)
  · simp only [hlink, reduceCtorEq, false_and, if_false] at hl ⊢
    exact ⟨by omega, hl.2⟩

theorem takeGood_ok {p : KioskPort} (h : p.linkOk ∧ p.capsOk) : p.takeGood.linkOk ∧ p.takeGood.capsOk := by
  have h' : KioskPort.linkOk { p with gathered := RxFrame.empty } ∧
      KioskPort.capsOk { p with gathered := RxFrame.empty } :=
    ⟨h.1, h.2.1, h.2.2.1, rfl, h.2.2.2.2⟩
  exact decreaseScore_ok h'

theorem dropNoticePort_wides (k : KioskId) : Wides l s l (s.dropNoticePort k) := by
  unfold State.dropNoticePort
  split
  · refine .trans (.kiosk k _ (fun h => ?_) (.sublist List.filter_sublist)) (setNotice_wides l _ _ _)
    refine ⟨h.1, h.2.1, ?_, h.2.2.2⟩
    have := h.2.2.1
    unfold KioskPort.replyCount at this ⊢
    rw [filter_not_reply]
    · exact this
    · intro e he
      cases e <;> simp_all [ControlEntry.isReply, ControlEntry.isNotice]
  · exact .refl

/-- The fields of a kiosk port that the shared operations below a command leave alone. -/
def KioskPort.Kin (p q : KioskPort) : Prop :=
  q.link = p.link ∧ q.score = p.score ∧ q.replyHeld = p.replyHeld ∧
    q.control.filter ControlEntry.isReply = p.control.filter ControlEntry.isReply

theorem KioskPort.Kin.rfl {p : KioskPort} : p.Kin p := ⟨by rfl, by rfl, by rfl, by rfl⟩

theorem KioskPort.Kin.trans {p q r : KioskPort} (h : p.Kin q) (g : q.Kin r) : p.Kin r :=
  ⟨g.1.trans h.1, g.2.1.trans h.2.1, g.2.2.1.trans h.2.2.1, g.2.2.2.trans h.2.2.2⟩

theorem KioskPort.QueuesOf.kin {K : Kind → Prop} {p q : KioskPort} (h : p.QueuesOf K q) : p.Kin q := by
  obtain ⟨c, t, w, rfl, hc, _, _⟩ := h
  exact ⟨by rfl, by rfl, by rfl, hc⟩

theorem move_kin {K : Kind → Prop} {l l' : List BlockId} {s s' : State} (m : Move K (l, s) (l', s')) (k : KioskId) :
    (s.kiosk k).Kin (s'.kiosk k) := by
  cases m with
  | kiosk n p h =>
    rw [setKiosk_kiosk]
    split
    · rename_i e
      subst e
      exact h.1.kin
    · exact .rfl
  | finish hj i j reason count live => exact (handJobEnd_queues (K := K) (s.dropped i j reason) _ k _ _ _ _ _).kin
  | credit hj i j ch limit live => exact (handCredit_queues (K := K) s _ k _ _ _).kin
  | start hj d i may queued ready =>
    obtain ⟨j, hjob, _⟩ := ready
    unfold State.activate
    rw [hjob]
    exact .rfl
  | _ => exact .rfl

theorem moves_kin {K : Kind → Prop} {l l' : List BlockId} {s s' : State} (m : Moves K l s l' s') (k : KioskId) :
    (s.kiosk k).Kin (s'.kiosk k) :=
  Moves.keeps (P := fun _ t => (s.kiosk k).Kin (t.kiosk k)) (fun _ _ _ _ m h => h.trans (move_kin m k)) m .rfl

theorem endPortJobs_moves (k : KioskId) : Moves anyKind l s l (s.endPortJobs k) := by
  unfold State.endPortJobs
  have key : ∀ (ts : List SlotId) (u : State),
      Moves anyKind l u l (ts.foldl (fun t slot => t.endJob (jobIx k slot) .ownerLost) u) := by
    intro ts
    induction ts with
    | nil => intro u; exact .refl
    | cons t rest ih =>
      intro u
      rw [List.foldl_cons]
      exact .trans (endJob_moves l u trivial _ _) (ih _)
  exact key allSlots s

theorem dropNoticePort_link (k n : KioskId) : ((s.dropNoticePort k).kiosk n).link = (s.kiosk n).link := by
  unfold State.dropNoticePort
  split
  · rw [setNotice_kiosk, modKiosk_kiosk]
    split
    · rename_i h
      rw [h]
    · rfl
  · rfl

theorem dropPort_wides (k : KioskId) (h : (s.kiosk k).link ≠ .degraded) : Wides l s l (s.dropPort k) := by
  unfold State.dropPort
  refine .trans ?_ (.moves (settleAll_moves l _ trivial _))
  refine .trans ?_ (loseOwner_wides l _ k)
  refine .trans (dropNoticePort_wides l s k) (.trans (.moves (endPortJobs_moves l _ k))
    (.kiosk k _ (fun hok => ?_) (.sublist (List.nil_sublist _))))
  have hl : (((s.dropNoticePort k).endPortJobs k).kiosk k).link ≠ .degraded := by
    rw [(moves_kin (endPortJobs_moves [] (s.dropNoticePort k) k) k).1, dropNoticePort_link]
    exact h
  generalize (((s.dropNoticePort k).endPortJobs k).kiosk k) = p at hok hl
  refine ⟨?_, Nat.zero_le _, Nat.zero_le _, rfl, hok.2.2.2.2⟩
  unfold KioskPort.linkOk
  show match p.link with
    | .normal => (0 : Nat) ≤ 127 ∧ (0 : Nat) = 0
    | .degraded => 128 ≤ (0 : Nat) ∧ (0 : Nat) ≤ 255 ∧ (0 : Nat) = 0
    | .isolated => (0 : Nat) = 0 ∧ (0 : Nat) ≤ 127 ∧ false = false ∧ none = (none : Option (TableId × Nat))
  cases hlink : p.link
  · exact ⟨by decide, rfl⟩
  · exact absurd hlink hl
  · exact ⟨rfl, by decide, rfl, rfl⟩

theorem isolate_wides (k : KioskId) : Wides l s l (s.isolate k) := by
  unfold State.isolate
  refine .trans (.trans (.trans (dropNoticePort_wides l s k) (.kiosk k _ fun hok => ?_)) (raise_wides l _ _))
    (dropPort_wides l _ k ?_)
  · exact ⟨⟨rfl, Nat.zero_le _, rfl, rfl⟩, hok.2⟩
  · rw [(moves_kin (raise_moves (K := anyKind) [] _ _) k).1, modKiosk_kiosk_self]
    simp [KioskPort.enterIsolated]

theorem resetPort_wides (k : KioskId) : Wides l s l (s.resetPort k) := by
  unfold State.resetPort
  refine .trans (.kiosk k _ fun hok => ?_) (dropPort_wides l _ k ?_)
  · exact ⟨⟨Nat.zero_le _, rfl⟩, hok.2⟩
  · rw [modKiosk_kiosk_self]
    simp [KioskPort.relink]

/-- The two flags that an increase can set. -/
theorem raiseBoth_wides (c d : Prop) [Decidable c] [Decidable d] :
    Wides l s l (if d then (if c then s.raise .kioskWarn else s).raise .kioskDegraded
      else if c then s.raise .kioskWarn else s) := by
  have inner : Wides l s l (if c then s.raise .kioskWarn else s) := by
    split
    · exact raise_wides l s _
    · exact .refl
  by_cases hd : d
  · rw [if_pos hd]
    exact .trans inner (raise_wides l _ _)
  · rw [if_neg hd]
    exact inner

theorem increaseScore_wides (k : KioskId) (h : (s.kiosk k).link ≠ .isolated) : Wides l s l (s.increaseScore k) := by
  unfold State.increaseScore
  split
  · exact isolate_wides l s k
  · rename_i hs
    dsimp only
    have first : ∀ d : Prop, [Decidable d] → (d ↔ (s.kiosk k).link = .normal ∧ 128 ≤ (s.kiosk k).score + 8) →
        Wides l s l (s.modKiosk k fun p =>
          { p with score := (s.kiosk k).score + 8, link := if d then .degraded else p.link }) := by
      intro d _ hd
      refine .kiosk k _ fun hok => ⟨?_, hok.2⟩
      have hl := hok.1
      unfold KioskPort.linkOk at hl ⊢
      cases hlink : (s.kiosk k).link
      · simp only [hlink, true_and] at hl hd ⊢
        by_cases hdd : d
        · simp only [hdd, if_true]
          exact ⟨hd.mp hdd, by omega, hl.2⟩
        · simp only [hdd, if_false]
          have hn : ¬ 128 ≤ (s.kiosk k).score + 8 := fun x => hdd (hd.mpr x)
          exact ⟨by omega, hl.2⟩
      · simp only [hlink, reduceCtorEq, false_and, iff_false] at hl hd ⊢
        simp only [hd, if_false]
        exact ⟨by omega, by omega, hl.2.2⟩
      · exact absurd hlink h
    exact .trans (first _ Iff.rfl) (raiseBoth_wides l _ _ _)

theorem penalize_wides (k : KioskId) (c : KioskCause) (h : (s.kiosk k).link ≠ .isolated) :
    Wides l s l (s.penalize k c) := by
  unfold State.penalize
  refine .trans (latchKiosk_wides l s k c) (increaseScore_wides l _ k ?_)
  unfold State.latchKiosk
  rw [modKiosk_kiosk_self]
  exact h

/-! ### Replies -/

/-- Room for a REPLY, as a number. -/
theorem replyRoom_lt {p : KioskPort} (h : p.replyRoom = true) :
    p.replyCount + (if p.replyHeld then 1 else 0) < Config.replyCap := by
  unfold KioskPort.replyRoom at h
  simpa using h

theorem replyRoom_kin {p q : KioskPort} (h : p.Kin q) : q.replyRoom = p.replyRoom := by
  unfold KioskPort.replyRoom KioskPort.replyCount
  rw [h.2.2.1, h.2.2.2]

/-- A REPLY joins where there is room for it. -/
theorem handReply_wides (k : KioskId) (ch tag kind : Byte) (st : Status) (f : List Byte) (a : AfterSend)
    (room : (s.kiosk k).replyRoom = true) : Wides l s l (s.handControl k (.reply ch tag kind st f a)) := by
  refine .kiosk k _ (fun hok => ⟨hok.1, hok.2.1, ?_, hok.2.2.2⟩) (.reply _ ch tag kind st f a)
  have := replyRoom_lt room
  unfold KioskPort.replyCount at this ⊢
  simp only [List.filter_append, List.length_append]
  simp only [ControlEntry.isReply, List.filter_cons, List.filter_nil, if_true, List.length_singleton]
  omega

theorem reply_wides (k : KioskId) (kind : Byte) (r : Request) (st : Status) (f : List Byte)
    (room : (s.kiosk k).replyRoom = true) : Wides l s l (s.reply k kind r st f) :=
  handReply_wides l s k _ _ _ _ _ _ room

theorem refuse_wides (k : KioskId) (kind : Byte) (r : Request) (st : Status)
    (room : (s.kiosk k).replyRoom = true) : Wides l s l (s.refuse k kind r st) := reply_wides l s k kind r st _ room

theorem takes_receives {k : KioskId} {kind : Byte} {r : Request} (h : s.takes k kind r = true) :
    (s.kiosk k).link ≠ .isolated := by
  unfold State.takes State.receives at h
  simp at h
  exact h.1.1.2

theorem decreaseScore_link {p : KioskPort} (h : p.link ≠ .isolated) : p.decreaseScore.link ≠ .isolated := by
  unfold KioskPort.decreaseScore
  dsimp only
  split
  · simp
  · exact h

/-- A request is served: what its service does on a state with reply room, its port not ISOLATED, is all that can
happen beside the good frame's decrement and the drop. -/
theorem serve_wides (k : KioskId) (kind : Byte) (r : Request) (served : State → State)
    (h : ∀ t : State, (t.kiosk k).replyRoom = true → (t.kiosk k).link ≠ .isolated → Wides l t l (served t)) :
    Wides l s l (s.serve k kind r served) := by
  unfold State.serve
  split
  · rename_i ht
    dsimp only
    refine .trans (.kiosk k _ takeGood_ok) ?_
    split
    · rename_i room
      refine h _ room ?_
      rw [modKiosk_kiosk_self]
      exact decreaseScore_link (p := { s.kiosk k with gathered := RxFrame.empty }) (takes_receives s ht)
    · unfold State.dropRequest
      exact .trans (latchKiosk_wides l _ k _) (raise_wides l _ _)
  · exact .refl

theorem serveManage_wides (k : KioskId) (kind : Byte) (r : Request) (form : Bool) (served : State → State)
    (h : ∀ t : State, (t.kiosk k).replyRoom = true → (t.kiosk k).link ≠ .isolated → Wides l t l (served t)) :
    Wides l s l (s.serveManage k kind r form served) := by
  unfold State.serveManage
  refine serve_wides l s k kind r _ fun t room hl => ?_
  split
  · exact refuse_wides l t k kind r _ room
  · split
    · exact refuse_wides l t k kind r _ room
    · split
      · exact refuse_wides l t k kind r _ room
      · exact h t room hl

theorem serveSlot_wides (k : KioskId) (kind : Byte) (r : Request) (served : State → SlotId → State)
    (h : ∀ (t : State) (slot : SlotId), (t.kiosk k).replyRoom = true → Wides l t l (served t slot)) :
    Wides l s l (s.serveSlot k kind r served) := by
  unfold State.serveSlot
  refine serve_wides l s k kind r _ fun t room _ => ?_
  split
  · exact refuse_wides l t k kind r _ room
  · split
    · exact refuse_wides l t k kind r _ room
    · exact h t _ room

end

end Sys2Proof.Machine
end

