-- ==== Sys2Proof/Laws/Requests.lean ====
section
/-! SUPPORT. The commands one by one as rows of steps, and all of them together: `exec_wides`. -/

namespace Sys2Proof.Machine

section
variable (l : List BlockId) (s : State)

/-! ### Jobs -/

theorem writeData_moves (chain : List BlockId) (freed p : Nat) (data : List Byte) :
    Moves anyKind l s l (s.writeData chain freed p data) := by
  induction data generalizing s p with
  | nil => exact .refl
  | cons b rest ih =>
    unfold State.writeData
    split
    · exact Moves.trans (.of (.byte trivial _ p b)) (ih _ (p + 1))
    · exact ih s (p + 1)

theorem writeData_job (chain : List BlockId) (freed p : Nat) (data : List Byte) (n : JobId) :
    (s.writeData chain freed p data).job n = s.job n := by
  induction data generalizing s p with
  | nil => rfl
  | cons b rest ih =>
    unfold State.writeData
    rw [ih]
    split <;> rfl

theorem Job.testReady_side (j : Job) (r : DeviceRecord) : j.SideOf (j.testReady r) := by
  unfold Job.testReady
  split
  · rename_i h
    exact ⟨rfl, rfl, rfl, rfl, by simp [h.2.1], id⟩
  · exact .rfl

theorem Job.testReady_allocation (j : Job) (r : DeviceRecord) : (j.testReady r).allocation = j.allocation := by
  unfold Job.testReady
  split <;> rfl

theorem Job.SideOf.trans {j k m : Job} (h : j.SideOf k) (g : k.SideOf m) : j.SideOf m :=
  ⟨g.1.trans h.1, g.2.1.trans h.2.1, g.2.2.1.trans h.2.2.1, g.2.2.2.1.trans h.2.2.2.1,
    g.2.2.2.2.1.trans h.2.2.2.2.1, fun ok => g.2.2.2.2.2 (h.2.2.2.2.2 ok)⟩

/-- Data up to an offset at or below the limit keeps the counts in order. -/
theorem Job.receive_side {j : Job} {upTo : Nat} (hlow : j.received ≤ upTo) (hhigh : upTo ≤ j.creditLimit) :
    j.SideOf (j.receive upTo) := by
  refine Job.sideOf_of rfl rfl rfl rfl rfl fun ok => ⟨Nat.le_trans ok.1 hlow, fun hk => ?_⟩
  obtain ⟨_, o2, o3⟩ := ok.2 hk
  refine ⟨hhigh, o2, fun hc => ?_⟩
  unfold Job.receive at hc
  simp only [Bool.or_eq_false_iff] at hc
  exact o3 hc.1

theorem takeData_wides (k : KioskId) (i : JobId) (j : Job) (o : Nat) (data : List Byte) (live : s.job i = some j)
    (hl : (s.kiosk k).link ≠ .isolated) : Wides l s l (s.takeData k i j o data) := by
  unfold State.takeData
  split
  · exact .refl
  · split
    · exact penalize_wides l s k _ hl
    · split
      · exact .moves (.trans (endJob_moves l s trivial i _) (settle_moves l _ trivial _))
      · rename_i h1 h2 h3
        unfold State.acceptData
        dsimp only
        have data := writeData_moves l s j.allocation j.freedBlocks j.received (data.drop (j.received - o))
        refine .moves (Moves.trans ?_ (settle_moves l _ trivial _))
        refine Moves.trans data (setJob_moves l _ trivial i j _ (by rw [writeData_job]; exact live) ?_ ?_)
        · exact Job.SideOf.trans (Job.receive_side (by omega) (by omega)) (Job.testReady_side _ _)
        · rw [Job.testReady_allocation]
          rfl

theorem jobData_wides (k : KioskId) (r : Request) (hl : (s.kiosk k).link ≠ .isolated) :
    Wides l s l (s.jobData k r) := by
  unfold State.jobData
  split
  · exact penalize_wides l s k _ hl
  · split
    · exact .refl
    · rename_i h
      exact takeData_wides l s k _ _ _ _ h hl

theorem finishClose_moves (i : JobId) (j : Job) : Moves anyKind l s l (s.finishClose i j) := by
  unfold State.finishClose
  have a := closeChain_moves (K := anyKind) l s trivial i
  have b := grantPass_moves (K := anyKind) l (s.closeChain i) trivial
  have c := modJob_moves (K := anyKind) l (s.closeChain i).grantPass trivial i
    (fun x => x.testReady (s.device j.device).record) (fun x => Job.testReady_side x _)
    fun x => Job.testReady_allocation x _
  exact Moves.trans (Moves.trans (Moves.trans a b) c) (settle_moves l _ trivial _)

theorem closeJob_wides (k : KioskId) (r : Request) (slot : SlotId) (room : (s.kiosk k).replyRoom = true) :
    Wides l s l (s.closeJob k r slot) := by
  unfold State.closeJob
  split
  · exact refuse_wides l s k _ r _ room
  · split
    · exact refuse_wides l s k _ r _ room
    · split
      · exact reply_wides l s k _ r _ _ room
      · split
        · exact .trans (reply_wides l s k _ r _ _ room) (.moves (finishClose_moves l _ _ _))
        · exact refuse_wides l s k _ r _ room

theorem abortJob_wides (k : KioskId) (r : Request) (slot : SlotId) (room : (s.kiosk k).replyRoom = true) :
    Wides l s l (s.abortJob k r slot) := by
  unfold State.abortJob
  split
  · exact refuse_wides l s k _ r _ room
  · split
    · exact refuse_wides l s k _ r _ room
    · split
      · exact refuse_wides l s k _ r _ room
      · split
        · split
          · exact reply_wides l s k _ r _ _ room
          · exact .trans (reply_wides l s k _ r _ _ room)
              (.moves (.trans (decideEnd_moves l _ trivial _ _) (settle_moves l _ trivial _)))
        · exact .trans (reply_wides l s k _ r _ _ room) (.moves (endJob_moves l _ trivial _ _))

theorem queryJob_wides (k : KioskId) (r : Request) (slot : SlotId) (room : (s.kiosk k).replyRoom = true) :
    Wides l s l (s.queryJob k r slot) := by
  unfold State.queryJob
  split
  · exact .trans (reply_wides l s k _ r _ _ room) (advanceFree_wides l _ _)
  · exact .trans (reply_wides l s k _ r _ _ room) (advanceFree_wides l _ _)

theorem admittedJob_ok (ch : Byte) (a : OpenArgs) (d : DeviceId) : (admittedJob ch a d).ok := by
  refine ⟨Nat.le_refl _, fun _ => ⟨Nat.le_refl _, fun _ => Nat.zero_le _, fun _ => ?_⟩⟩
  unfold Job.limitNow Job.top admittedJob
  simp

theorem admit_wides (k : KioskId) (r : Request) (a : OpenArgs) (e : RouteId) (d : DeviceId)
    (free : s.job (jobIx k a.slot) = none) (calm : s.jobEndWaits k a.slot = false) (room : (s.kiosk k).replyRoom = true)
    (queue : (s.device d).queue.length < Config.queueCap) : Wides l s l (s.enrol k r a e d) := by
  unfold State.enrol
  dsimp only
  refine .trans ?_ (.moves (settle_moves l _ trivial _))
  have first := Wides.of (.enrol (l := l) (s := s) (jobIx k a.slot) (admittedJob r.channel a d) d free
    (by rw [(jobIx_inj rfl).1, (jobIx_inj rfl).2]; exact calm) (admittedJob_ok _ _ _) rfl
    (by unfold admittedJob; dsimp only; split <;> simp) rfl queue)
  have second : Wides l s l (((s.setJob (jobIx k a.slot) (some (admittedJob r.channel a d))).modDevice d fun p =>
      { p with queue := p.queue ++ [jobIx k a.slot] }).reply k kindJobOpen r .ok
      (openFields a.slot (some e) (some d) (some (s.device d).queue.length))) := by
    refine .trans first (reply_wides l _ k _ r _ _ ?_)
    rw [modDevice_kiosk, setJob_kiosk]
    exact room
  split
  · exact .trans second (.moves (grantPass_moves l _ trivial))
  · exact second

theorem RouteEntry.hit_ok (e : RouteEntry) : e.hit.ok := Nat.min_le_left _ _

theorem admitOrRefuse_wides (k : KioskId) (r : Request) (a : OpenArgs) (e : RouteId) (d : DeviceId)
    (free : s.job (jobIx k a.slot) = none) (calm : s.jobEndWaits k a.slot = false)
    (room : (s.kiosk k).replyRoom = true) :
    Wides l s l (s.admitOrRefuse k r a e d) := by
  unfold State.admitOrRefuse
  split
  · exact reply_wides l s k _ r _ _ room
  · split
    · exact reply_wides l s k _ r _ _ room
    · rename_i hq
      exact admit_wides l s k r a e d free calm room (Nat.lt_of_not_le hq)

theorem openJob_wides (k : KioskId) (r : Request) (room : (s.kiosk k).replyRoom = true) :
    Wides l s l (s.openJob k r) := by
  unfold State.openJob
  cases parseOpen r.channel r.payload with
  | none => exact refuse_wides l s k _ r _ room
  | some a =>
    dsimp only
    split
    · exact reply_wides l s k _ r _ _ room
    · rename_i hocc
      split
      · exact reply_wides l s k _ r _ _ room
      · cases s.lookup r.channel k with
        | none => exact reply_wides l s k _ r _ _ room
        | some e =>
          dsimp only
          have room' : ((s.setRoute e (s.route e).hit).kiosk k).replyRoom = true := room
          refine .trans (.of (.route e (s.route e).hit (RouteEntry.hit_ok _))) ?_
          cases (s.route e).action with
          | deny => exact reply_wides l _ k _ r _ _ room'
          | accept =>
            unfold State.occupied at hocc
            simp only [Bool.or_eq_true, not_or, Option.isSome_iff_ne_none, ne_eq, not_not, Bool.not_eq_true] at hocc
            exact admitOrRefuse_wides l _ k r a e _ hocc.1 hocc.2 room'

/-! ### Tables -/

theorem be_byteAt_lt (bs : List Byte) (i : Nat) : byteAt bs i < 256 := (bs.getD i 0#8).isLt

theorem decodeRoute_ok {r : List Byte} {x : RouteEntry} (h : decodeRoute r = some x) : x.ok := by
  unfold decodeRoute at h
  split at h
  · injection h with h
    subst h
    exact Nat.zero_le _
  · exact absurd h (by simp)

theorem decodePanel_ok {old x : Panel} {r : List Byte} (h : decodePanel old r = some x) : x.ok := by
  unfold decodePanel at h
  split at h
  · exact absurd h (by simp)
  · split at h
    · exact absurd h (by simp)
    · rename_i ha
      injection h with h
      subst h
      have hb := be_byteAt_lt r 2
      have hne : ∀ v : Nat, v < 256 → byteAt r 2 ≠ v → byte (byteAt r 2) ≠ BitVec.ofNat 8 v := by
        intro v hv hn e
        apply hn
        have := congrArg BitVec.toNat e
        unfold byte at this
        simp only [BitVec.toNat_ofNat] at this
        omega
      unfold Panel.ok clampOffset clampGain
      refine ⟨hne 0 (by decide) fun e => ha (.inl e), hne 255 (by decide) fun e => ha (.inr e), ?_⟩
      dsimp only
      omega

theorem decodeZone_ok {r : List Byte} {x : Zone} (h : decodeZone r = some x) : x.ok := by
  unfold decodeZone at h
  split at h
  · split at h
    · rename_i hc
      injection h with h
      subst h
      unfold clampCoord at hc
      unfold Zone.ok clampCoord clampSize
      dsimp only
      omega
    · exact absurd h (by simp)
  · exact absurd h (by simp)

theorem decodeDevice_ok {r : List Byte} {x : DeviceRecord} (h : decodeDevice r = some x) : x.ok := by
  unfold decodeDevice at h
  split at h
  · split at h
    · exact absurd h (by simp)
    · rename_i hc
      injection h with h
      subst h
      have b := be_byteAt_lt r
      have := b 6; have := b 7; have := b 8; have := b 9; have := b 10; have := b 11; have := b 12
      have := b 13; have := b 14
      unfold DeviceRecord.ok oneToByte
      refine ⟨fun hf => ?_, ?_⟩
      · by_contra hn
        exact hc ⟨hf, hn⟩
      · dsimp only
        have := Nat.mod_lt (word16 r 2) (show 0 < 4096 by decide)
        omega
  · exact absurd h (by simp)

theorem decodeKiosk_ok {r : List Byte} {x : Fin 4 × Nat} (h : decodeKiosk r = some x) : x.2 ≤ 2048 := by
  unfold decodeKiosk at h
  split at h
  · injection h with h
    subst h
    exact Nat.min_le_right _ _
  · exact absurd h (by simp)

theorem decodeSpool_ok (r : List Byte) : (decodeSpool r).ok := ⟨Nat.min_le_right _ _, Nat.min_le_right _ _⟩

theorem removeFromRound_same (n : PanelId) (p : DevicePort) :
    (DevicePort.removeFromRound n p).queue = p.queue ∧ (DevicePort.removeFromRound n p).record = p.record := by
  unfold DevicePort.removeFromRound
  dsimp only
  split
  · split
    · split <;> exact ⟨rfl, rfl⟩
    · exact ⟨rfl, rfl⟩
  · exact ⟨rfl, rfl⟩

theorem storePanel_wides (p : PanelId) (x : Panel) (h : x.ok) : Wides l s l (s.storePanel p x) := by
  unfold State.storePanel
  exact .trans (.trans (.moves (releasePanel_moves l s trivial p)) (.of (.panel p x fun _ => h)))
    (.device _ _ (fun q => (removeFromRound_same p q).1) fun q => (removeFromRound_same p q).2)

theorem failMismatched_moves (c : DeviceClass) (q : List JobId) : Moves anyKind l s l (s.failMismatched c q) := by
  unfold State.failMismatched
  induction q generalizing s with
  | nil => exact .refl
  | cons i rest ih =>
    rw [List.foldl_cons]
    refine Moves.trans ?_ (ih (State.failMismatch c s i))
    unfold State.failMismatch
    split
    · split
      · exact .refl
      · exact endJob_moves l s trivial i _
    · exact .refl

theorem testQueue_moves (rec : DeviceRecord) (q : List JobId) : Moves anyKind l s l (s.testQueue rec q) := by
  unfold State.testQueue
  induction q generalizing s with
  | nil => exact .refl
  | cons i rest ih =>
    rw [List.foldl_cons]
    exact Moves.trans (modJob_moves l s trivial i _ (fun x => Job.testReady_side x rec) fun x =>
      Job.testReady_allocation x rec) (ih _)

theorem storeDevice_wides (d : DeviceId) (rec : DeviceRecord) (h : rec.ok) : Wides l s l (s.storeDevice d rec) := by
  unfold State.storeDevice
  dsimp only
  have first : Wides l s l (s.modDevice d (DevicePort.restartEngine rec)) := .of (.device d _ rfl fun _ => h)
  have second : Wides l s l (if rec.cls = (s.device d).record.cls then s.modDevice d (DevicePort.restartEngine rec)
      else (s.modDevice d (DevicePort.restartEngine rec)).failMismatched rec.cls (s.device d).queue) := by
    split
    · exact first
    · exact .trans first (.moves (failMismatched_moves l _ _ _))
  refine .trans (.trans (.trans second (.device d _ (fun p => ?_) fun p => ?_)) (.moves (testQueue_moves l _ _ _)))
    (.moves (restartPanels_moves l _ trivial _))
  · rw [restartAtn_queue]
  · rw [restartAtn_record]

theorem storeKiosk_wides (k : KioskId) (rate : Fin 4) (quota : Nat) (h : quota ≤ 2048) :
    Wides l s l (s.storeKiosk k rate quota) :=
  .trans (.kiosk k _ fun hok => ⟨hok.1, hok.2.1, hok.2.2.1, hok.2.2.2.1, h⟩) (.moves (grantPass_moves l _ trivial))

theorem storeSpool_wides (r : SpoolRecord) (h : r.ok) : Wides l s l (s.storeSpool r) :=
  .trans (.trans (.of (.spoolRecord r h)) (.moves (evalTight_moves l _ trivial))) (.moves (grantPass_moves l _ trivial))

theorem storeRecord_wides (t : TableId) (i : Nat) (record : List Byte) : Wides l s l (s.storeRecord t i record) := by
  cases t
  · simp only [State.storeRecord]
    split
    · rename_i h
      exact .of (.route _ _ (decodeRoute_ok h))
    · exact .refl
  · simp only [State.storeRecord]
    split
    · exact .refl
    · split
      · rename_i h
        exact storePanel_wides l s _ _ (decodePanel_ok h)
      · exact .refl
  · simp only [State.storeRecord]
    split
    · rename_i h
      exact .of (.zone _ _ (decodeZone_ok h))
    · exact .refl
  · simp only [State.storeRecord]
    split
    · rename_i h
      exact storeDevice_wides l s _ _ (decodeDevice_ok h)
    · exact .refl
  · simp only [State.storeRecord]
    split
    · exact storeSpool_wides l s _ (decodeSpool_ok record)
    · split
      · rename_i h
        exact storeKiosk_wides l s _ _ _ (decodeKiosk_ok h)
      · exact .refl
  · exact .refl
  · exact .refl

theorem setCursor_wides (k : KioskId) (t : TableId) (n : Nat) (h : (s.kiosk k).link ≠ .isolated) :
    Wides l s l (s.setCursor k t n) := by
  refine .kiosk k _ fun hok => ⟨?_, hok.2⟩
  have hl := hok.1
  unfold KioskPort.linkOk at hl ⊢
  cases hlink : (s.kiosk k).link
  · simpa [hlink] using hl
  · simpa [hlink] using hl
  · exact absurd hlink h

/-- A REPLY leaves the link state. -/
theorem reply_link (k n : KioskId) (kind : Byte) (r : Request) (st : Status) (f : List Byte) :
    ((s.reply k kind r st f).kiosk n).link = (s.kiosk n).link := by
  unfold State.reply State.handControl
  rw [modKiosk_kiosk]
  split
  · rename_i h
    rw [h]
  · rfl

theorem readRecord_wides (k : KioskId) (kind : Byte) (r : Request) (t : TableId) (i : Nat)
    (room : (s.kiosk k).replyRoom = true) (hl : (s.kiosk k).link ≠ .isolated) :
    Wides l s l (s.readRecord k kind r t i) := by
  unfold State.readRecord
  refine .trans (.trans (reply_wides l s k _ r _ _ room) (setCursor_wides l _ k _ _ ?_)) (advanceFree_wides l _ _)
  rw [reply_link]
  exact hl

theorem writeRecord_wides (k : KioskId) (kind : Byte) (r : Request) (t : TableId) (i : Nat) (record : List Byte)
    (room : (s.kiosk k).replyRoom = true) (hl : (s.kiosk k).link ≠ .isolated) :
    Wides l s l (s.writeRecord k kind r t i record) := by
  unfold State.writeRecord
  split
  · refine .trans (.trans (reply_wides l s k _ r _ _ room) (setCursor_wides l _ k _ _ ?_)) (storeRecord_wides l _ _ _ _)
    rw [reply_link]
    exact hl
  · exact refuse_wides l s k _ r _ room

end

end Sys2Proof.Machine
end

