-- ==== Sys2Proof/Laws/Exec.lean ====
section
/-! SUPPORT. The commands that are no job request and no table access, and all commands together: `exec_wides`. -/

namespace Sys2Proof.Machine

section
variable (l : List BlockId) (s : State)

/-- A change of one device port that keeps its queue and record, and then a row of moves. -/
theorem Wides.deviceThen {l l' : List BlockId} {s t : State} {d : DeviceId} {f : DevicePort → DevicePort}
    (h : Moves anyKind l (s.modDevice d f) l' t) (hq : ∀ p, (f p).queue = p.queue) (hr : ∀ p, (f p).record = p.record) :
    Wides l s l' t := .trans (.device d f hq hr) (.moves h)

/-! ### Link -/

theorem RxFrame.add_wf {f : RxFrame} (c : Byte) (b : Bool) (h : f.wf = true) : (RxFrame.add f c b).wf = true := by
  unfold RxFrame.wf at h ⊢
  simp only [decide_eq_true_eq] at h ⊢
  unfold RxFrame.add
  dsimp only
  split
  · simp only [List.length_append, List.length_singleton]
    omega
  · omega

/-- A port taken out of its cursor keeps its link law. -/
theorem linkOk_noCursor {p : KioskPort} (h : p.linkOk) (e : Bool) :
    KioskPort.linkOk { p with gathered := RxFrame.empty, cursor := none, echoPending := e } := by
  unfold KioskPort.linkOk at h ⊢
  cases hlink : p.link
  · simpa [hlink] using h
  · simpa [hlink] using h
  · simp only [hlink] at h ⊢
    exact ⟨h.1, h.2.1, h.2.2.1, trivial⟩

theorem kioskBreak_wides (k : KioskId) : ∃ t, execKioskBreak k s = .next t ∧ Wides l s l t := by
  refine ⟨_, rfl, ?_⟩
  split
  · exact .refl
  · split
    · exact .kiosk k _ fun hok => ⟨hok.1, hok.2⟩
    · exact .kiosk k _ fun hok => ⟨linkOk_noCursor hok.1 true, hok.2.1, hok.2.2.1, rfl, hok.2.2.2.2⟩

theorem cleanPeriod_wides (k : KioskId) : ∃ t, execCleanPeriod k s = .next t ∧ Wides l s l t := by
  refine ⟨_, rfl, ?_⟩
  split
  · rename_i hl
    split
    · refine .kiosk k _ fun hok => ⟨?_, hok.2⟩
      have h := hok.1
      unfold KioskPort.linkOk at h ⊢
      simp only [hl] at h ⊢
      exact ⟨h.1, by omega, h.2.2⟩
    · refine .trans ?_ (raise_wides l _ _)
      exact .kiosk k _ fun hok => ⟨⟨Nat.zero_le _, rfl⟩, hok.2.1, hok.2.2.1, rfl, hok.2.2.2.2⟩
  · exact .refl

theorem kioskCharReceived_wides (k : KioskId) (c : Byte) (f : Bool) :
    ∃ t, execKioskCharReceived k c f s = .next t ∧ Wides l s l t := by
  refine ⟨_, rfl, ?_⟩
  split
  · exact .refl
  · split
    · exact .kiosk k _ fun hok => ⟨hok.1, hok.2⟩
    · exact .kiosk k _ fun hok => ⟨hok.1, hok.2.1, hok.2.2.1, RxFrame.add_wf c f hok.2.2.2.1, hok.2.2.2.2⟩

theorem frameCheckFailed_wides (k : KioskId) (f : RxFrame) :
    ∃ t, execFrameCheckFailed k f s = .next t ∧ Wides l s l t := by
  refine ⟨_, rfl, ?_⟩
  split
  · rename_i h
    split
    · refine .trans (.kiosk k _ fun hok => ⟨hok.1, hok.2.1, hok.2.2.1, rfl, hok.2.2.2.2⟩) (penalize_wides l _ k _ ?_)
      rw [modKiosk_kiosk_self]
      unfold State.receives at h
      simp at h
      exact h.1.1.1.2
    · exact .refl
  · exact .refl

/-! ### Lock, status, flags, notices, store -/

theorem kiosk_unlock (k : KioskId) (h : (s.kiosk k).link ≠ .isolated) :
    Wides l s l (s.modKiosk k fun p => { p with unlocked := true }) := by
  refine .kiosk k _ fun hok => ⟨?_, hok.2⟩
  have hl := hok.1
  unfold KioskPort.linkOk at hl ⊢
  cases hlink : (s.kiosk k).link
  · simpa [hlink] using hl
  · simpa [hlink] using hl
  · exact absurd hlink h

theorem lockPort_wides (k : KioskId) : Wides l s l (s.lockPort k) := by
  unfold State.lockPort
  refine .trans (dropNoticePort_wides l s k) (.kiosk k _ fun hok => ⟨?_, hok.2⟩)
  have hl := hok.1
  unfold KioskPort.linkOk at hl ⊢
  generalize (s.dropNoticePort k).kiosk k = p at hl ⊢
  cases hlink : p.link
  · simpa [hlink] using hl
  · simpa [hlink] using hl
  · simp only [hlink] at hl ⊢
    exact ⟨hl.1, hl.2.1, trivial, trivial⟩

theorem lockPort_link (k n : KioskId) : ((s.lockPort k).kiosk n).link = (s.kiosk n).link := by
  unfold State.lockPort
  rw [modKiosk_kiosk]
  split
  · rename_i h
    subst h
    exact dropNoticePort_link s n n
  · exact dropNoticePort_link s k n

theorem tryUnlock_wides (k : KioskId) (r : Request) (room : (s.kiosk k).replyRoom = true)
    (hl : (s.kiosk k).link ≠ .isolated) : Wides l s l (s.tryUnlock k r) := by
  unfold State.tryUnlock
  split
  · exact .trans (reply_wides l s k _ r _ _ room) (kiosk_unlock l _ k (by rw [reply_link]; exact hl))
  · exact .trans (.trans (reply_wides l s k _ r _ _ room) (lockPort_wides l _ k))
      (penalize_wides l _ k _ (by rw [lockPort_link, reply_link]; exact hl))

theorem emptyCauses_wides (d : DeviceId) : Wides l s l (s.emptyCauses d) := by
  unfold State.emptyCauses
  have first : Wides l s l (s.modDevice d fun p => { p with causes := 0#4 }) :=
    .device d _ (fun _ => rfl) fun _ => rfl
  refine .trans first ?_
  clear first
  generalize (s.modDevice d fun p => { p with causes := 0#4 }) = t
  generalize s.namedPanels d = ps
  induction ps generalizing t with
  | nil => exact .refl
  | cons p rest ih =>
    rw [List.foldl_cons]
    exact Wides.trans (.of (.panel p { t.panel p with causes := 0#2 } id)) (ih _)

theorem dropOldNotice_wides (k : KioskId) : Wides l s l (s.dropOldNotice k) := by
  unfold State.dropOldNotice
  split
  · split
    · exact .refl
    · exact dropNoticePort_wides l s _
  · exact .refl

theorem takeNotice_wides (k : KioskId) (mask : FlagSet) : Wides l s l (s.takeNotice k mask) := by
  have old := dropOldNotice_wides l s k
  unfold State.takeNotice
  generalize s.dropOldNotice k = u at old ⊢
  have first := Wides.trans old (setNotice_wides l u (some k) mask)
  dsimp only
  split
  · exact first
  · exact .trans first (.moves (handNotice_moves l _ k))

theorem startWrite_wides (k : KioskId) (r : Request) (rate : Fin 4) (room : (s.kiosk k).replyRoom = true) :
    Wides l s l (s.startWrite k r rate) := by
  unfold State.startWrite
  refine .trans (setStore_wides l s _) (.kiosk k _ fun hok => ⟨hok.1, hok.2.1, ?_, hok.2.2.2⟩)
  have := replyRoom_lt room
  show (s.kiosk k).replyCount + (if true = true then 1 else 0) ≤ Config.replyCap
  rw [if_pos rfl]
  omega

theorem answerWrite_wides (w : StoreWrite) : Wides l s l (s.answerWrite w) := by
  unfold State.answerWrite
  split
  · rename_i held
    have same : ((s.handControl w.port (.reply w.channel w.tag kindStoreWrite .ok [] .nothing)).modKiosk w.port fun p =>
        { p with replyHeld := false }) = s.setKiosk w.port { s.kiosk w.port with
          control := (s.kiosk w.port).control ++ [.reply w.channel w.tag kindStoreWrite .ok [] .nothing],
          replyHeld := false } := by
      unfold State.handControl State.modKiosk
      rw [setKiosk_kiosk_self, setKiosk_setKiosk]
    rw [same]
    refine .of (.kiosk w.port _ (fun hok => ⟨hok.1, hok.2.1, ?_, hok.2.2.2⟩) (.reply _ _ _ _ _ _ _))
    have := hok.2.2.1
    unfold KioskPort.replyCount at this ⊢
    rw [held] at this
    simp only [List.filter_append, List.length_append, if_true] at this ⊢
    simp only [ControlEntry.isReply, List.filter_cons, List.filter_nil, if_true, List.length_singleton,
      Bool.false_eq_true, if_false]
    omega
  · exact .refl

theorem storeWriteComplete_wides : ∃ t, execStoreWriteComplete s = .next t ∧ Wides l s l t := by
  refine ⟨_, rfl, ?_⟩
  split
  · exact .refl
  · exact .trans (.trans (setStore_wides l s _) (raise_wides l _ _)) (answerWrite_wides l _ _)

/-! ### Device service -/

theorem drain_wides (d : DeviceId) : Wides l s l (s.drain d) := by
  unfold State.drain
  split
  · split
    · exact .moves (leaveOnline_moves l s trivial d)
    · exact .device d _ (fun _ => rfl) fun _ => rfl
  · exact .device d _ (fun _ => rfl) fun _ => rfl
  · exact .refl

theorem resume_wides (d : DeviceId) : Wides l s l (s.resume d) := by
  unfold State.resume
  split
  · exact .moves (becomeOnline_moves l s trivial d)
  · exact .device d _ (fun _ => rfl) fun _ => rfl
  · exact .refl

theorem resetEngine_queue (p : DevicePort) : p.resetEngine.queue = p.queue := by
  unfold DevicePort.resetEngine
  rw [restartAtn_queue]

theorem resetEngine_record (p : DevicePort) : p.resetEngine.record = p.record := by
  unfold DevicePort.resetEngine
  rw [restartAtn_record]

theorem resetDevice_wides (d : DeviceId) : Wides l s l (s.resetDevice d) := by
  unfold State.resetDevice
  dsimp only
  have first : Wides l s l ((match s.activeJob d with
      | some i => s.decideEnd i .failedDeviceReset
      | none => s).modDevice d DevicePort.resetEngine) := by
    refine .trans ?_ (.device d _ resetEngine_queue resetEngine_record)
    split
    · exact .moves (decideEnd_moves l s trivial _ _)
    · exact .refl
  split
  · exact .trans first (.moves (.trans (releasePanels_moves l _ trivial _) (restartPanels_moves l _ trivial _)))
  · exact first

/-! ### Transmit line -/

theorem startFrame_ok {p q : KioskPort} {src : FrameSource} {a : AfterSend} {b : List Byte}
    (h : p.linkOk ∧ p.capsOk) (hq : q = p.startFrame src a b) : q.linkOk ∧ q.capsOk := by
  subst hq
  exact ⟨h.1, h.2⟩

theorem arbitrate_wides (k : KioskId) : Wides l s l (s.arbitrate k) := by
  unfold State.arbitrate
  split
  · exact .kiosk k _ fun hok => ⟨hok.1, hok.2⟩
  · split
    · rename_i e rest _ ht
      unfold State.startTouch
      refine .trans (.kiosk k _ fun hok => ⟨hok.1, ?_, hok.2.2⟩) (.moves (placeOwed_moves l _ trivial k _))
      have := hok.2.1
      rw [ht] at this
      exact Nat.le_trans (Nat.le_succ _) this
    · rename_i e rest _ hc
      unfold State.startControl
      refine .kiosk k _ (fun hok => ⟨hok.1, hok.2.1, ?_, hok.2.2.2⟩)
        (.sublist (by rw [hc]; exact List.sublist_cons_self e rest))
      have := hok.2.2.1
      unfold KioskPort.replyCount at this
      rw [hc, List.filter_cons] at this
      unfold KioskPort.replyCount
      show (rest.filter ControlEntry.isReply).length + (if (s.kiosk k).replyHeld then 1 else 0) ≤ Config.replyCap
      split at this
      · rw [List.length_cons] at this
        omega
      · exact this
    · split
      · unfold State.startScan
        split
        · exact .kiosk k _ fun hok => ⟨hok.1, hok.2⟩
        · exact .refl
      · exact .refl

theorem raise_job (f : Flag) (n : JobId) : (s.raise f).job n = s.job n := by
  unfold State.raise
  split
  · rfl
  · dsimp only
    split
    · split
      · unfold State.handNotice; rfl
      · rfl
    · rfl

theorem evalTight_job (n : JobId) : s.evalTight.job n = s.job n := by
  unfold State.evalTight
  split
  · split
    · dsimp only
      split
      · rw [raise_job]; rfl
      · rfl
    · rfl
  · split
    · dsimp only
      split
      · rw [raise_job]; rfl
      · rfl
    · rfl

/-- Freeing the head block leaves the counts of the job. -/
theorem freeHead_job {i : JobId} {j : Job} (live : s.job i = some j) :
    ∃ x, (s.freeHead i).job i = some x ∧ x.sent = j.sent ∧ x.received = j.received := by
  unfold State.freeHead
  rw [live]
  dsimp only
  split
  · refine ⟨j.dropHead, ?_, rfl, rfl⟩
    unfold State.joinFree
    rw [evalTight_job, setFree_job, setJob_job_self]
  · exact ⟨j, live, rfl, rfl⟩

theorem headFill_le (j : Job) : j.headFill ≤ j.received - j.sent := Nat.min_le_right _ _

theorem deliverHead_moves (i : JobId) : Moves anyKind l s l (s.deliverHead i) := by
  unfold State.deliverHead
  split
  · exact .refl
  · rename_i j live
    refine .trans (.trans (.trans (freeHead_moves l s trivial i) ?_) (evalWatermark_moves l _ i)) (grantPass_moves l _ trivial)
    obtain ⟨x, hx, hs, hr⟩ := freeHead_job s live
    unfold State.modJob
    rw [hx]
    refine setJob_moves l _ trivial i x _ hx (Job.sideOf_of rfl rfl rfl rfl rfl fun ok => ⟨?_, ok.2⟩) rfl
    have := headFill_le j
    have := ok.1
    show x.sent + j.headFill ≤ x.received
    omega

theorem scanDelivered_moves (i : JobId) : Moves anyKind l s l (s.scanDelivered i) := by
  unfold State.scanDelivered
  split
  · exact .refl
  · dsimp only
    refine .trans (deliverHead_moves l s i) (.trans ?_ (settle_moves l _ trivial _))
    split
    · exact endJob_moves l _ trivial i _
    · exact endIfDelivered_moves l _ trivial i

theorem frameEnded_wides (k : KioskId) (src : FrameSource) (a : AfterSend) : Wides [] s [] (s.frameEnded k src a) := by
  unfold State.frameEnded
  split
  · exact .moves (scanDelivered_moves [] s _)
  · exact .refl
  · exact .refl
  · split
    · exact .refl
    · exact .of .reset
    · exact resetPort_wides [] s k

/-! ### Device side -/

theorem latchErrors_side (a b : Bool) (p : DevicePort) :
    (DevicePort.latchErrors a b p).queue = p.queue ∧ (DevicePort.latchErrors a b p).record = p.record := by
  unfold DevicePort.latchErrors
  dsimp only
  constructor <;> (split <;> split <;> rfl)

theorem pollCharSent_moves {K : Kind → Prop} (d : DeviceId) : Moves K l s l (s.pollCharSent d) := by
  unfold State.pollCharSent
  split
  · split
    · exact setStep_moves l s d _
    · exact .refl
  · exact .refl

/-- A change of one device port that keeps its queue, record and pins. -/
theorem modDevice_wides (d : DeviceId) (f : DevicePort → DevicePort) (hq : ∀ p, (f p).queue = p.queue)
    (hr : ∀ p, (f p).record = p.record) : Wides l s l (s.modDevice d f) := .device d f hq hr

end

/-- Every command answers with a next state, reached by a row of steps. -/
theorem exec_wides (c : Instr) (s : State) : ∃ t, exec c s = .next t ∧ Wides [] s [] t := by
  cases c with
  | powerOnReset => exact ⟨_, rfl, .of .power⟩
  | storeReadComplete =>
    refine ⟨_, rfl, ?_⟩
    split
    · exact .of .start
    · exact .refl
  | frameCheckFailed k f => exact frameCheckFailed_wides [] s k f
  | badFrameRequest k kind r =>
    refine ⟨_, rfl, ?_⟩
    split
    · exact serve_wides [] s k kind r _ fun t room _ => refuse_wides [] t k kind r _ room
    · exact .refl
  | kioskBreak k => exact kioskBreak_wides [] s k
  | cleanPeriod k => exact cleanPeriod_wides [] s k
  | jobOpen k r => exact ⟨_, rfl, serve_wides [] s k _ r _ fun t room _ => openJob_wides [] t k r room⟩
  | jobData k r =>
    refine ⟨_, rfl, ?_⟩
    split
    · rename_i h
      refine .trans (.kiosk k _ takeGood_ok) (jobData_wides [] _ k r ?_)
      rw [modKiosk_kiosk_self]
      exact decreaseScore_link (p := { s.kiosk k with gathered := RxFrame.empty }) (takes_receives s h)
    · exact .refl
  | jobClose k r => exact ⟨_, rfl, serveSlot_wides [] s k _ r _ fun t slot room => closeJob_wides [] t k r slot room⟩
  | jobAbort k r => exact ⟨_, rfl, serveSlot_wides [] s k _ r _ fun t slot room => abortJob_wides [] t k r slot room⟩
  | jobQuery k r => exact ⟨_, rfl, serveSlot_wides [] s k _ r _ fun t slot room => queryJob_wides [] t k r slot room⟩
  | unlock k r =>
    refine ⟨_, rfl, serve_wides [] s k _ r _ fun t room hl => ?_⟩
    split
    · exact refuse_wides [] t k _ r _ room
    · split
      · exact refuse_wides [] t k _ r _ room
      · exact tryUnlock_wides [] t k r room hl
  | lock k r =>
    exact ⟨_, rfl, serveManage_wides [] s k _ r _ _ fun t room _ =>
      .trans (reply_wides [] t k _ r _ _ room) (lockPort_wides [] _ k)⟩
  | tableRead k r =>
    refine ⟨_, rfl, serveManage_wides [] s k _ r _ _ fun t room hl => ?_⟩
    split
    · exact refuse_wides [] t k _ r _ room
    · split
      · exact readRecord_wides [] t k _ r _ _ room hl
      · exact refuse_wides [] t k _ r _ room
  | tableReadNext k r =>
    refine ⟨_, rfl, serveManage_wides [] s k _ r _ _ fun t room hl => ?_⟩
    split
    · exact refuse_wides [] t k _ r _ room
    · split
      · exact readRecord_wides [] t k _ r _ _ room hl
      · exact refuse_wides [] t k _ r _ room
  | tableWriteRoute k ch tag i rec =>
    exact ⟨_, rfl, serveManage_wides [] s k _ _ _ _ fun t room hl => writeRecord_wides [] t k _ _ _ _ _ room hl⟩
  | tableWritePanel k ch tag i rec =>
    exact ⟨_, rfl, serveManage_wides [] s k _ _ _ _ fun t room hl => writeRecord_wides [] t k _ _ _ _ _ room hl⟩
  | tableWriteZone k ch tag i rec =>
    exact ⟨_, rfl, serveManage_wides [] s k _ _ _ _ fun t room hl => writeRecord_wides [] t k _ _ _ _ _ room hl⟩
  | tableWriteDevice k ch tag i rec =>
    exact ⟨_, rfl, serveManage_wides [] s k _ _ _ _ fun t room hl => writeRecord_wides [] t k _ _ _ _ _ room hl⟩
  | tableWriteKiosk k ch tag i rec =>
    exact ⟨_, rfl, serveManage_wides [] s k _ _ _ _ fun t room hl => writeRecord_wides [] t k _ _ _ _ _ room hl⟩
  | tableWriteSpool k ch tag rec =>
    exact ⟨_, rfl, serveManage_wides [] s k _ _ _ _ fun t room hl => writeRecord_wides [] t k _ _ _ _ _ room hl⟩
  | tableWriteReadOnly k r =>
    refine ⟨_, rfl, ?_⟩
    split
    · exact .refl
    · exact serveManage_wides [] s k _ r _ _ fun t room _ => refuse_wides [] t k _ r _ room
  | tableWriteNext k r =>
    refine ⟨_, rfl, serveManage_wides [] s k _ r _ _ fun t room hl => ?_⟩
    split
    · exact refuse_wides [] t k _ r _ room
    · exact writeRecord_wides [] t k _ r _ _ _ room hl
  | statusRead k r =>
    exact ⟨_, rfl, serveManage_wides [] s k _ r _ _ fun t room _ => reply_wides [] t k _ r _ _ room⟩
  | portStatus k r =>
    refine ⟨_, rfl, serveManage_wides [] s k _ r _ _ fun t room _ => ?_⟩
    split
    · exact refuse_wides [] t k _ r _ room
    · exact .trans (reply_wides [] t k _ r _ _ room) (.kiosk _ _ fun hok => ⟨hok.1, hok.2⟩)
  | deviceStatus k r =>
    refine ⟨_, rfl, serveManage_wides [] s k _ r _ _ fun t room _ => ?_⟩
    split
    · exact refuse_wides [] t k _ r _ room
    · exact .trans (.trans (reply_wides [] t k _ r _ _ room) (emptyCauses_wides [] _ _)) (advanceFree_wides [] _ _)
  | flagsClear k r =>
    exact ⟨_, rfl, serveManage_wides [] s k _ r _ _ fun t room _ =>
      .trans (reply_wides [] t k _ r _ _ room) (setFlags_wides [] _ _)⟩
  | noticeSet k r =>
    refine ⟨_, rfl, serveManage_wides [] s k _ r _ _ fun t room _ => ?_⟩
    dsimp only
    split
    · exact .trans (reply_wides [] t k _ r _ _ room) (dropNoticePort_wides [] _ k)
    · exact .trans (reply_wides [] t k _ r _ _ room) (takeNotice_wides [] _ k _)
  | storeWrite k r =>
    refine ⟨_, rfl, serveManage_wides [] s k _ r _ _ fun t room _ => ?_⟩
    split
    · exact refuse_wides [] t k _ r _ room
    · split
      · exact refuse_wides [] t k _ r _ room
      · exact startWrite_wides [] t k r _ room
  | storeWriteComplete => exact storeWriteComplete_wides [] s
  | switchReset k r =>
    refine ⟨_, rfl, serveManage_wides [] s k _ r _ _ fun t room _ => ?_⟩
    split
    · exact refuse_wides [] t k _ r _ room
    · exact handReply_wides [] t k _ _ _ _ _ _ room
  | portReset k r =>
    refine ⟨_, rfl, serveManage_wides [] s k _ r _ _ fun t room _ => ?_⟩
    split
    · exact refuse_wides [] t k _ r _ room
    · split
      · exact handReply_wides [] t k _ _ _ _ _ _ room
      · exact .trans (reply_wides [] t k _ r _ _ room) (resetPort_wides [] _ _)
  | deviceDrain k r =>
    refine ⟨_, rfl, serveManage_wides [] s k _ r _ _ fun t room _ => ?_⟩
    split
    · exact refuse_wides [] t k _ r _ room
    · split
      · exact refuse_wides [] t k _ r _ room
      · exact .trans (reply_wides [] t k _ r _ _ room) (drain_wides [] _ _)
  | deviceResume k r =>
    refine ⟨_, rfl, serveManage_wides [] s k _ r _ _ fun t room _ => ?_⟩
    split
    · exact refuse_wides [] t k _ r _ room
    · split
      · exact refuse_wides [] t k _ r _ room
      · exact .trans (reply_wides [] t k _ r _ _ room) (resume_wides [] _ _)
  | deviceReset k r =>
    refine ⟨_, rfl, serveManage_wides [] s k _ r _ _ fun t room _ => ?_⟩
    split
    · exact refuse_wides [] t k _ r _ room
    · exact .trans (reply_wides [] t k _ r _ _ room) (resetDevice_wides [] _ _)
  | deviceBreak k r =>
    refine ⟨_, rfl, serveManage_wides [] s k _ r _ _ fun t room _ => ?_⟩
    split
    · exact refuse_wides [] t k _ r _ room
    · split
      · exact refuse_wides [] t k _ r _ room
      · split
        · exact refuse_wides [] t k _ r _ room
        · exact .trans (reply_wides [] t k _ r _ _ room) (.device _ _ (fun _ => rfl) fun _ => rfl)
  | transmitStart k =>
    refine ⟨_, rfl, ?_⟩
    split
    · exact arbitrate_wides [] s k
    · exact .refl
  | frameTransmitEnd k =>
    refine ⟨_, rfl, ?_⟩
    split
    · exact .trans (.kiosk k _ fun hok => ⟨hok.1, hok.2⟩) (frameEnded_wides _ k _ _)
    · exact .refl
  | breakEchoEnd k =>
    refine ⟨_, rfl, ?_⟩
    split
    · exact .kiosk k _ fun hok => ⟨hok.1, hok.2⟩
    · exact .refl
  | lineGapEnd k =>
    refine ⟨_, rfl, ?_⟩
    split
    · exact .kiosk k _ fun hok => ⟨hok.1, hok.2⟩
    · exact .refl
  | atnLineChange d b =>
    exact ⟨_, rfl, .deviceThen (followAtn_moves [] _ trivial d) (fun _ => rfl) fun _ => rfl⟩
  | atnBlankingExpiry d =>
    refine ⟨_, rfl, ?_⟩
    split
    · exact .moves (qualify_moves [] s trivial d _)
    · exact .refl
  | faultLimitExpiry d =>
    refine ⟨_, rfl, ?_⟩
    split
    · dsimp only
      split
      · exact .deviceThen (.trans (decideEnd_moves [] _ trivial _ _) (settle_moves [] _ trivial d)) (fun _ => rfl) fun _ => rfl
      · exact .device d _ (fun _ => rfl) fun _ => rfl
    · exact .refl
  | rdyChange d b =>
    exact ⟨_, rfl, .deviceThen (settle_moves [] _ trivial d) (fun _ => rfl) fun _ => rfl⟩
  | characterSent d =>
    refine ⟨_, rfl, ?_⟩
    split
    · exact .refl
    · exact .deviceThen (.trans (pollCharSent_moves [] _ d) (settle_moves [] _ trivial d)) (fun _ => rfl) fun _ => rfl
  | deviceBreakEnd d =>
    refine ⟨_, rfl, ?_⟩
    split
    · exact .deviceThen (settle_moves [] _ trivial d) (fun _ => rfl) fun _ => rfl
    · exact .refl
  | underrunTimeoutExpiry d =>
    refine ⟨_, rfl, ?_⟩
    split
    · split
      · exact .moves (.trans (endJob_moves [] s trivial _ _) (settle_moves [] _ trivial d))
      · exact .refl
    · exact .refl
  | deviceCharReceived d data n m =>
    refine ⟨_, rfl, ?_⟩
    split
    · exact .refl
    · exact .deviceThen (takeChar_moves [] _ trivial trivial trivial d _ _ _) (fun p => (latchErrors_side _ _ p).1)
        fun p => (latchErrors_side _ _ p).2
  | firstByteTimeoutExpiry d =>
    refine ⟨_, rfl, ?_⟩
    split
    · split
      · exact .moves (.trans (endJob_moves [] s trivial _ _) (settle_moves [] _ trivial d))
      · exact .refl
    · exact .refl
  | endGapReached d =>
    refine ⟨_, rfl, ?_⟩
    split
    · split
      · exact .refl
      · dsimp only
        split
        · exact .deviceThen (.trans (endIfDelivered_moves [] _ trivial _) (settle_moves [] _ trivial d)) (fun _ => rfl) fun _ => rfl
        · exact .device d _ (fun _ => rfl) fun _ => rfl
    · exact .refl
  | flushEnd d =>
    refine ⟨_, rfl, ?_⟩
    split
    · exact .deviceThen (settle_moves [] _ trivial d) (fun _ => rfl) fun _ => rfl
    · exact .refl
  | pollIntervalExpiry d =>
    refine ⟨_, rfl, ?_⟩
    split
    · split
      · exact .moves (modPoller_moves [] s d _)
      · exact .moves (startRound_moves [] s trivial d)
    · exact .refl
  | replyTimeoutExpiry d =>
    refine ⟨_, rfl, ?_⟩
    split
    · exact .moves (.trans (setStep_moves [] s d _) (miss_moves [] _ trivial _))
    · exact .refl
  | replyIdleLimit d =>
    refine ⟨_, rfl, ?_⟩
    split
    · split
      · exact .refl
      · exact .moves (malformedReply_moves [] s trivial d _)
    · exact .refl
  | settlingEnd d =>
    refine ⟨_, rfl, ?_⟩
    split
    · split
      · exact .refl
      · exact .moves (advanceRound_moves [] s trivial d)
    · exact .refl
  | kioskCharReceived k c f => exact kioskCharReceived_wides [] s k c f
  | deviceLineReturnToMark d => exact ⟨_, rfl, .device d _ (fun _ => rfl) fun _ => rfl⟩

end Sys2Proof.Machine
end

