-- ==== Sys2Proof/Laws/PerInstr.lean ====
section
/-! SUPPORT. Per command: what well-formedness asks of it. A command that brings a good frame is well-formed exactly when
the payload is at most 256 bytes long (R140, check 3), and one that brings no frame always is. -/

namespace Sys2Proof.Laws

/-- The payload length of the good frame that a command brings, if it brings one (R150). -/
def framePayload : Instr → Option Nat
  | .powerOnReset => none
  | .storeReadComplete => none
  | .frameCheckFailed _ _ => none
  | .badFrameRequest _ _ r => some r.payload.length
  | .kioskBreak _ => none
  | .cleanPeriod _ => none
  | .jobOpen _ r => some r.payload.length
  | .jobData _ r => some r.payload.length
  | .jobClose _ r => some r.payload.length
  | .jobAbort _ r => some r.payload.length
  | .jobQuery _ r => some r.payload.length
  | .unlock _ r => some r.payload.length
  | .lock _ r => some r.payload.length
  | .tableRead _ r => some r.payload.length
  | .tableReadNext _ r => some r.payload.length
  | .tableWriteRoute _ _ _ _ rec => some (rec.length + 2)
  | .tableWritePanel _ _ _ _ rec => some (rec.length + 2)
  | .tableWriteZone _ _ _ _ rec => some (rec.length + 2)
  | .tableWriteDevice _ _ _ _ rec => some (rec.length + 2)
  | .tableWriteKiosk _ _ _ _ rec => some (rec.length + 2)
  | .tableWriteSpool _ _ _ rec => some (rec.length + 2)
  | .tableWriteReadOnly _ r => some r.payload.length
  | .tableWriteNext _ r => some r.payload.length
  | .statusRead _ r => some r.payload.length
  | .portStatus _ r => some r.payload.length
  | .deviceStatus _ r => some r.payload.length
  | .flagsClear _ r => some r.payload.length
  | .noticeSet _ r => some r.payload.length
  | .storeWrite _ r => some r.payload.length
  | .storeWriteComplete => none
  | .switchReset _ r => some r.payload.length
  | .portReset _ r => some r.payload.length
  | .deviceDrain _ r => some r.payload.length
  | .deviceResume _ r => some r.payload.length
  | .deviceReset _ r => some r.payload.length
  | .deviceBreak _ r => some r.payload.length
  | .transmitStart _ => none
  | .frameTransmitEnd _ => none
  | .breakEchoEnd _ => none
  | .lineGapEnd _ => none
  | .atnLineChange _ _ => none
  | .atnBlankingExpiry _ => none
  | .faultLimitExpiry _ => none
  | .rdyChange _ _ => none
  | .characterSent _ => none
  | .deviceBreakEnd _ => none
  | .underrunTimeoutExpiry _ => none
  | .deviceCharReceived _ _ _ _ => none
  | .firstByteTimeoutExpiry _ => none
  | .endGapReached _ => none
  | .flushEnd _ => none
  | .pollIntervalExpiry _ => none
  | .replyTimeoutExpiry _ => none
  | .replyIdleLimit _ => none
  | .settlingEnd _ => none
  | .kioskCharReceived _ _ _ => none
  | .deviceLineReturnToMark _ => none

/-- A command that brings characters which the receiver must still check (R140). -/
def bringsUnchecked : Instr → Bool
  | .frameCheckFailed _ _ => true
  | _ => false

/-- What the family says of one command. -/
def FrameCommand.Statement (i : Instr) : Prop :=
  match framePayload i with
  | some n => (i.wf = true ↔ n ≤ 256)
  | none => bringsUnchecked i = false → i.wf = true

theorem FrameCommand.powerOnReset :
    FrameCommand.Statement .powerOnReset := fun _ => rfl

theorem FrameCommand.storeReadComplete :
    FrameCommand.Statement .storeReadComplete := fun _ => rfl

theorem FrameCommand.frameCheckFailed (k : KioskId) (taken : RxFrame) :
    FrameCommand.Statement (.frameCheckFailed k taken) := fun h => Bool.noConfusion h

theorem FrameCommand.badFrameRequest (k : KioskId) (kind : Byte) (r : Request) :
    FrameCommand.Statement (.badFrameRequest k kind r) := decide_eq_true_iff

theorem FrameCommand.kioskBreak (k : KioskId) :
    FrameCommand.Statement (.kioskBreak k) := fun _ => rfl

theorem FrameCommand.cleanPeriod (k : KioskId) :
    FrameCommand.Statement (.cleanPeriod k) := fun _ => rfl

theorem FrameCommand.jobOpen (k : KioskId) (r : Request) :
    FrameCommand.Statement (.jobOpen k r) := decide_eq_true_iff

theorem FrameCommand.jobData (k : KioskId) (r : Request) :
    FrameCommand.Statement (.jobData k r) := decide_eq_true_iff

theorem FrameCommand.jobClose (k : KioskId) (r : Request) :
    FrameCommand.Statement (.jobClose k r) := decide_eq_true_iff

theorem FrameCommand.jobAbort (k : KioskId) (r : Request) :
    FrameCommand.Statement (.jobAbort k r) := decide_eq_true_iff

theorem FrameCommand.jobQuery (k : KioskId) (r : Request) :
    FrameCommand.Statement (.jobQuery k r) := decide_eq_true_iff

theorem FrameCommand.unlock (k : KioskId) (r : Request) :
    FrameCommand.Statement (.unlock k r) := decide_eq_true_iff

theorem FrameCommand.lock (k : KioskId) (r : Request) :
    FrameCommand.Statement (.lock k r) := decide_eq_true_iff

theorem FrameCommand.tableRead (k : KioskId) (r : Request) :
    FrameCommand.Statement (.tableRead k r) := decide_eq_true_iff

theorem FrameCommand.tableReadNext (k : KioskId) (r : Request) :
    FrameCommand.Statement (.tableReadNext k r) := decide_eq_true_iff

theorem FrameCommand.tableWriteRoute (k : KioskId) (channel tag index : Byte) (record : List Byte) :
    FrameCommand.Statement (.tableWriteRoute k channel tag index record) := decide_eq_true_iff

theorem FrameCommand.tableWritePanel (k : KioskId) (channel tag index : Byte) (record : List Byte) :
    FrameCommand.Statement (.tableWritePanel k channel tag index record) := decide_eq_true_iff

theorem FrameCommand.tableWriteZone (k : KioskId) (channel tag index : Byte) (record : List Byte) :
    FrameCommand.Statement (.tableWriteZone k channel tag index record) := decide_eq_true_iff

theorem FrameCommand.tableWriteDevice (k : KioskId) (channel tag index : Byte) (record : List Byte) :
    FrameCommand.Statement (.tableWriteDevice k channel tag index record) := decide_eq_true_iff

theorem FrameCommand.tableWriteKiosk (k : KioskId) (channel tag index : Byte) (record : List Byte) :
    FrameCommand.Statement (.tableWriteKiosk k channel tag index record) := decide_eq_true_iff

theorem FrameCommand.tableWriteSpool (k : KioskId) (channel tag : Byte) (record : List Byte) :
    FrameCommand.Statement (.tableWriteSpool k channel tag record) := decide_eq_true_iff

theorem FrameCommand.tableWriteReadOnly (k : KioskId) (r : Request) :
    FrameCommand.Statement (.tableWriteReadOnly k r) := decide_eq_true_iff

theorem FrameCommand.tableWriteNext (k : KioskId) (r : Request) :
    FrameCommand.Statement (.tableWriteNext k r) := decide_eq_true_iff

theorem FrameCommand.statusRead (k : KioskId) (r : Request) :
    FrameCommand.Statement (.statusRead k r) := decide_eq_true_iff

theorem FrameCommand.portStatus (k : KioskId) (r : Request) :
    FrameCommand.Statement (.portStatus k r) := decide_eq_true_iff

theorem FrameCommand.deviceStatus (k : KioskId) (r : Request) :
    FrameCommand.Statement (.deviceStatus k r) := decide_eq_true_iff

theorem FrameCommand.flagsClear (k : KioskId) (r : Request) :
    FrameCommand.Statement (.flagsClear k r) := decide_eq_true_iff

theorem FrameCommand.noticeSet (k : KioskId) (r : Request) :
    FrameCommand.Statement (.noticeSet k r) := decide_eq_true_iff

theorem FrameCommand.storeWrite (k : KioskId) (r : Request) :
    FrameCommand.Statement (.storeWrite k r) := decide_eq_true_iff

theorem FrameCommand.storeWriteComplete :
    FrameCommand.Statement .storeWriteComplete := fun _ => rfl

theorem FrameCommand.switchReset (k : KioskId) (r : Request) :
    FrameCommand.Statement (.switchReset k r) := decide_eq_true_iff

theorem FrameCommand.portReset (k : KioskId) (r : Request) :
    FrameCommand.Statement (.portReset k r) := decide_eq_true_iff

theorem FrameCommand.deviceDrain (k : KioskId) (r : Request) :
    FrameCommand.Statement (.deviceDrain k r) := decide_eq_true_iff

theorem FrameCommand.deviceResume (k : KioskId) (r : Request) :
    FrameCommand.Statement (.deviceResume k r) := decide_eq_true_iff

theorem FrameCommand.deviceReset (k : KioskId) (r : Request) :
    FrameCommand.Statement (.deviceReset k r) := decide_eq_true_iff

theorem FrameCommand.deviceBreak (k : KioskId) (r : Request) :
    FrameCommand.Statement (.deviceBreak k r) := decide_eq_true_iff

theorem FrameCommand.transmitStart (k : KioskId) :
    FrameCommand.Statement (.transmitStart k) := fun _ => rfl

theorem FrameCommand.frameTransmitEnd (k : KioskId) :
    FrameCommand.Statement (.frameTransmitEnd k) := fun _ => rfl

theorem FrameCommand.breakEchoEnd (k : KioskId) :
    FrameCommand.Statement (.breakEchoEnd k) := fun _ => rfl

theorem FrameCommand.lineGapEnd (k : KioskId) :
    FrameCommand.Statement (.lineGapEnd k) := fun _ => rfl

theorem FrameCommand.atnLineChange (d : DeviceId) (high : Bool) :
    FrameCommand.Statement (.atnLineChange d high) := fun _ => rfl

theorem FrameCommand.atnBlankingExpiry (d : DeviceId) :
    FrameCommand.Statement (.atnBlankingExpiry d) := fun _ => rfl

theorem FrameCommand.faultLimitExpiry (d : DeviceId) :
    FrameCommand.Statement (.faultLimitExpiry d) := fun _ => rfl

theorem FrameCommand.rdyChange (d : DeviceId) (high : Bool) :
    FrameCommand.Statement (.rdyChange d high) := fun _ => rfl

theorem FrameCommand.characterSent (d : DeviceId) :
    FrameCommand.Statement (.characterSent d) := fun _ => rfl

theorem FrameCommand.deviceBreakEnd (d : DeviceId) :
    FrameCommand.Statement (.deviceBreakEnd d) := fun _ => rfl

theorem FrameCommand.underrunTimeoutExpiry (d : DeviceId) :
    FrameCommand.Statement (.underrunTimeoutExpiry d) := fun _ => rfl

theorem FrameCommand.deviceCharReceived (d : DeviceId) (data : Byte) (ninth stopMark : Bool) :
    FrameCommand.Statement (.deviceCharReceived d data ninth stopMark) := fun _ => rfl

theorem FrameCommand.firstByteTimeoutExpiry (d : DeviceId) :
    FrameCommand.Statement (.firstByteTimeoutExpiry d) := fun _ => rfl

theorem FrameCommand.endGapReached (d : DeviceId) :
    FrameCommand.Statement (.endGapReached d) := fun _ => rfl

theorem FrameCommand.flushEnd (d : DeviceId) :
    FrameCommand.Statement (.flushEnd d) := fun _ => rfl

theorem FrameCommand.pollIntervalExpiry (d : DeviceId) :
    FrameCommand.Statement (.pollIntervalExpiry d) := fun _ => rfl

theorem FrameCommand.replyTimeoutExpiry (d : DeviceId) :
    FrameCommand.Statement (.replyTimeoutExpiry d) := fun _ => rfl

theorem FrameCommand.replyIdleLimit (d : DeviceId) :
    FrameCommand.Statement (.replyIdleLimit d) := fun _ => rfl

theorem FrameCommand.settlingEnd (d : DeviceId) :
    FrameCommand.Statement (.settlingEnd d) := fun _ => rfl

theorem FrameCommand.kioskCharReceived (k : KioskId) (char : Byte) (framing : Bool) :
    FrameCommand.Statement (.kioskCharReceived k char framing) := fun _ => rfl

theorem FrameCommand.deviceLineReturnToMark (d : DeviceId) :
    FrameCommand.Statement (.deviceLineReturnToMark d) := fun _ => rfl

end Sys2Proof.Laws
end

