-- ==== Sys2Proof/Laws/Quiet.lean ====
section
/-! SUPPORT. A FREE record stays FREE under every move; and a kiosk port that is no notice port, has no live job and has
an empty control queue stays so under every operation of jobs and device ports: nothing hands its egress an entry (R125),
so isolation and a port reset leave it empty (R137). -/

namespace Sys2Proof.Machine

/-! ### FREE records and the notice port under moves -/

/-- A FREE record stays FREE, and the notice port stays where it is. -/
theorem move_free {K : Kind → Prop} {l l' : List BlockId} {s s' : State} (m : Move K (l, s) (l', s')) :
    (∀ n, s.job n = none → s'.job n = none) ∧ s'.noticePort = s.noticePort := by
  cases m with
  | job hj i j k live side blocks => exact ⟨setJob_keepsFree live _, rfl⟩
  | drop hj i j reason live =>
    exact ⟨setJob_keepsFree (s := s.modDevice j.device (DevicePort.dropJob i j reason)) live _, rfl⟩
  | finish hj i j reason count live =>
    exact ⟨setJob_keepsFree (s := s.modDevice j.device (DevicePort.dropJob i j reason)) live _, rfl⟩
  | start hj d i may queued ready =>
    obtain ⟨j, live, _⟩ := ready
    unfold State.activate
    rw [live]
    refine ⟨fun n h => ?_, rfl⟩
    dsimp only
    rw [setJob_job]
    split
    · rename_i e
      rw [e, live] at h
      cases h
    · exact h
  | _ => exact ⟨fun _ h => h, rfl⟩

theorem moves_free {K : Kind → Prop} {l l' : List BlockId} {s s' : State} (m : Moves K l s l' s') :
    (∀ n, s.job n = none → s'.job n = none) ∧ s'.noticePort = s.noticePort := by
  refine Moves.keeps (P := fun _ t => (∀ n, s.job n = none → t.job n = none) ∧ t.noticePort = s.noticePort) ?_ m
    ⟨fun _ h => h, rfl⟩
  intro _ _ _ _ step h
  have g := move_free step
  exact ⟨fun n x => g.1 n (h.1 n x), g.2.trans h.2⟩

/-- R5: an ended record is FREE. -/
theorem endJob_free (s : State) (i : JobId) (reason : EndReason) : (s.endJob i reason).job i = none := by
  unfold State.endJob
  split
  · assumption
  · rename_i j _
    dsimp only
    refine (moves_free (grantPass_moves (K := anyKind) [] _ trivial)).1 i ?_
    have g : (((s.modDevice j.device (DevicePort.dropJob i j reason)).setJob i none).returnBlocks j.allocation).job i =
        none := (moves_free (returnBlocks_moves (K := anyKind) [] _ trivial j.allocation)).1 i (setJob_job_self _ _ _)
    split
    · exact g
    · exact g

/-- R23: every record of a port whose jobs have ended is FREE. -/
theorem endPortJobs_free (s : State) (k : KioskId) (slot : SlotId) : (s.endPortJobs k).job (jobIx k slot) = none := by
  have key : ∀ (ts : List SlotId) (u : State), (slot ∈ ts ∨ u.job (jobIx k slot) = none) →
      (ts.foldl (fun t n => t.endJob (jobIx k n) .ownerLost) u).job (jobIx k slot) = none := by
    intro ts
    induction ts with
    | nil => exact fun u h => h.resolve_left (by simp)
    | cons n rest ih =>
      intro u h
      rw [List.foldl_cons]
      by_cases e : slot = n
      · exact ih _ (.inr (by rw [e]; exact endJob_free u _ _))
      · rcases h with h | h
        · exact ih _ (.inl ((List.mem_cons.mp h).resolve_left e))
        · exact ih _ (.inr ((moves_free (endJob_moves (K := anyKind) [] u trivial _ _)).1 _ h))
  exact key allSlots s (.inl (List.mem_finRange slot))

/-! ### Quiet ports -/

/-- Kn is no notice port, none of its job records is live and no entry waits in its control queue. -/
def Quiet (k : KioskId) (s : State) : Prop :=
  s.noticePort ≠ some k ∧ (∀ slot, s.job (jobIx k slot) = none) ∧ (s.kiosk k).control = []

namespace Quiet

variable {k : KioskId} {s : State}

theorem of_same {t : State} (h : Quiet k s) (h1 : t.noticePort = s.noticePort) (h2 : t.jobs = s.jobs)
    (h3 : t.kiosks = s.kiosks) : Quiet k t := by
  refine ⟨by rw [h1]; exact h.1, fun slot => ?_, ?_⟩
  · unfold State.job; rw [h2]; exact h.2.1 slot
  · unfold State.kiosk; rw [h3]; exact h.2.2

theorem other {i : JobId} {j : Job} (h : Quiet k s) (live : s.job i = some j) : jobKiosk i ≠ k := by
  intro e
  have := h.2.1 (jobSlot i)
  rw [← e, jobIx_parts, live] at this
  cases this

theorem setJob (h : Quiet k s) (i : JobId) (x : Option Job) (other : x = none ∨ jobKiosk i ≠ k) :
    Quiet k (s.setJob i x) := by
  refine ⟨h.1, fun slot => ?_, h.2.2⟩
  rw [setJob_job]
  split
  · rename_i e
    rcases other with rfl | o
    · rfl
    · refine absurd ?_ o
      rw [← e]
      apply Fin.ext
      show (k.val * 3 + slot.val) / 3 = k.val
      omega
  · exact h.2.1 slot

theorem modKiosk (h : Quiet k s) (n : KioskId) (f : KioskPort → KioskPort) (other : n ≠ k) :
    Quiet k (s.modKiosk n f) := by
  refine ⟨h.1, h.2.1, ?_⟩
  rw [modKiosk_kiosk, if_neg (fun e => other e.symm)]
  exact h.2.2

theorem raise (h : Quiet k s) (f : Flag) : Quiet k (s.raise f) := by
  unfold State.raise
  split
  · exact h
  · dsimp only
    have g : Quiet k (s.setFlags (s.flags ||| f.mask)) := h.of_same rfl rfl rfl
    split
    · rename_i n hn
      split
      · exact g.modKiosk n _ fun e => h.1 (by rw [hn, e])
      · exact g
    · exact g

theorem evalTight (h : Quiet k s) : Quiet k s.evalTight := by
  unfold State.evalTight
  split
  · split
    · dsimp only
      split
      · exact (h.of_same (t := s.setTight false) rfl rfl rfl).raise _
      · exact h.of_same rfl rfl rfl
    · exact h
  · split
    · dsimp only
      split
      · exact (h.of_same (t := s.setTight true) rfl rfl rfl).raise _
      · exact h.of_same rfl rfl rfl
    · exact h

theorem joinFree (h : Quiet k s) (b : BlockId) : Quiet k (s.joinFree b) :=
  (h.of_same (t := s.setFree (s.free ++ [b])) rfl rfl rfl).evalTight

theorem returnBlocks (h : Quiet k s) (bs : List BlockId) : Quiet k (s.returnBlocks bs) := by
  unfold State.returnBlocks
  induction bs generalizing s with
  | nil => exact h
  | cons b rest ih => exact ih (h.joinFree b)

theorem grantTo (h : Quiet k s) (i : JobId) : Quiet k (s.grantTo i) := by
  unfold State.grantTo
  split
  · rename_i b rest j _ live
    have g := ((h.of_same (t := s.setFree rest) rfl rfl rfl).setJob i (some (j.granted b)) (.inr (h.other live)))
    have c : Quiet k (((s.setFree rest).setJob i (some (j.granted b))).creditRise i j.creditLimit
        (j.granted b).creditLimit j.channel) := by
      unfold State.creditRise
      split
      · exact g.modKiosk _ _ (h.other live)
      · exact g
    exact Quiet.evalTight (c.of_same rfl rfl rfl)
  · exact h

theorem grantPass (h : Quiet k s) : Quiet k s.grantPass := by
  unfold State.grantPass
  generalize s.free.length = n
  induction n generalizing s with
  | zero => exact h
  | succ n ih =>
    unfold State.grantLoop
    split
    · exact ih (h.grantTo _)
    · exact h

theorem freeHead (h : Quiet k s) (i : JobId) : Quiet k (s.freeHead i) := by
  unfold State.freeHead
  split
  · rename_i j live
    split
    · exact (h.setJob i _ (.inr (h.other live))).joinFree _
    · exact h
  · exact h

theorem endJob (h : Quiet k s) (i : JobId) (reason : EndReason) : Quiet k (s.endJob i reason) := by
  unfold State.endJob
  split
  · exact h
  · rename_i j live
    dsimp only
    have g : Quiet k (((s.modDevice j.device (DevicePort.dropJob i j reason)).setJob i none).returnBlocks
        j.allocation) :=
      ((h.of_same (t := s.modDevice j.device (DevicePort.dropJob i j reason)) rfl rfl rfl).setJob i none
        (.inl rfl)).returnBlocks _
    refine Quiet.grantPass ?_
    split
    · exact g
    · exact g.modKiosk _ _ (h.other live)

theorem completeDrain (h : Quiet k s) (d : DeviceId) : Quiet k (s.completeDrain d) := by
  unfold State.completeDrain
  split
  · exact h
  · split
    · exact (h.of_same (t := s.modDevice d fun p => { p with service := .offline }) rfl rfl rfl).raise _
    · exact (h.of_same (t := s.modDevice d fun p => { p with service := .fault .offline }) rfl rfl rfl).raise _
    · exact h

theorem schedule (h : Quiet k s) (d : DeviceId) : Quiet k (s.schedule d) := by
  unfold State.schedule
  split
  · split
    · unfold State.activate
      split
      · exact h
      · rename_i j live
        exact (h.of_same (t := s.modDevice j.device (DevicePort.takeJob j)) rfl rfl rfl).setJob _ _
          (.inr (h.other live))
    · exact h
  · exact h

theorem feed (h : Quiet k s) (d : DeviceId) : Quiet k (s.feed d) := by
  unfold State.feed
  split
  · exact h
  · split
    · exact h
    · split
      · exact h
      · rename_i i _ _ j live
        split
        · unfold State.feedPrint
          split
          · exact h
          · rename_i b rest ha
            split
            · have g : Quiet k ((s.modDevice d fun p =>
                  { p with holding := some { data := s.readBlock b j.sent, address := false } }).setJob i
                    (some { j with sent := j.sent + 1 })) :=
                (h.of_same (t := s.modDevice d fun p =>
                  { p with holding := some { data := s.readBlock b j.sent, address := false } }) rfl rfl rfl).setJob i _
                  (.inr (h.other live))
              dsimp only
              split
              · exact (g.freeHead i).grantPass
              · exact g
            · exact h
        · unfold State.feedCommand
          dsimp only
          split
          · exact h.of_same rfl rfl rfl
          · exact h

theorem moveTx (h : Quiet k s) (d : DeviceId) : Quiet k (s.moveTx d) := by
  unfold State.moveTx
  split
  · exact h
  · exact h.of_same rfl rfl rfl

theorem updateUnderrun (h : Quiet k s) (d : DeviceId) : Quiet k (s.updateUnderrun d) := by
  unfold State.updateUnderrun
  split <;> exact h.of_same rfl rfl rfl

theorem settle (h : Quiet k s) (d : DeviceId) : Quiet k (s.settle d) := by
  rw [State.settle]
  generalize (s.device d).queue.length + 1 = n
  induction n generalizing s with
  | zero => exact h
  | succ n ih =>
    rw [State.settleLoop]
    have g : Quiet k (s.settleRound d) := by
      unfold State.settleRound State.pump
      exact ((((((h.of_same (t := s.modDevice d DevicePort.startBreak) rfl rfl rfl).completeDrain d).schedule d).feed d).moveTx
        d).feed d).updateUnderrun d
    generalize s.settleRound d = t at g ⊢
    generalize t.finishedPrint d = o
    cases o with
    | none => exact g
    | some i => exact ih (g.endJob i .done)

theorem settleAll (h : Quiet k s) (ds : List DeviceId) : Quiet k (s.settleAll ds) := by
  unfold State.settleAll
  induction ds generalizing s with
  | nil => exact h
  | cons d rest ih =>
    rw [List.foldl_cons]
    exact ih (s := s.settle d) (h.settle d)

end Quiet

/-- R137: what a port lost leaves: no notice port, its slots FREE, its control queue empty. -/
theorem dropPort_quiet (s : State) (k : KioskId) : Quiet k (s.dropPort k) := by
  unfold State.dropPort
  have g : Quiet k (((s.dropNoticePort k).endPortJobs k).modKiosk k KioskPort.drop) := ?_
  · exact Quiet.settleAll (s := (((s.dropNoticePort k).endPortJobs k).modKiosk k KioskPort.drop).loseOwner k)
      (g.of_same rfl rfl rfl) _
  refine ⟨?_, ?_, ?_⟩
  · have m := (moves_free (endPortJobs_moves [] (s.dropNoticePort k) k)).2
    show ((s.dropNoticePort k).endPortJobs k).noticePort ≠ some k
    rw [m]
    unfold State.dropNoticePort
    split
    · exact fun h => by cases h
    · assumption
  · exact fun slot => endPortJobs_free (s.dropNoticePort k) k slot
  · rw [modKiosk_kiosk_self]
    rfl

end Sys2Proof.Machine
end

