-- ==== Sys2Proof/Laws/Serving.lean ====
section
/-! SUPPORT. How a good frame is taken and its request served (R126, R142, R164): one lemma per outcome of `serve`,
`serveManage` and `serveSlot`. -/

namespace Sys2Proof.Machine

variable {s : State} {k : KioskId} {kind : Byte} {r : Request}

/-- What taking a good frame leaves of the port besides the buffer, the score and the link state. -/
theorem takeGood_fields (p : KioskPort) :
    p.takeGood = { p with
      gathered := RxFrame.empty, score := p.score - 1,
      link := if p.link = .degraded ∧ p.score - 1 ≤ 127 then .normal else p.link } := rfl

theorem takeGood_replyRoom (p : KioskPort) : p.takeGood.replyRoom = p.replyRoom := rfl

theorem takeGood_unlocked (p : KioskPort) : p.takeGood.unlocked = p.unlocked := rfl

theorem good_replyRoom (s : State) (k : KioskId) :
    ((s.modKiosk k KioskPort.takeGood).kiosk k).replyRoom = (s.kiosk k).replyRoom := by
  rw [modKiosk_kiosk_self, takeGood_replyRoom]

theorem serve_untaken (f : State → State) (h : s.takes k kind r = false) : s.serve k kind r f = s := by
  unfold State.serve
  rw [h]
  rfl

theorem serve_full (f : State → State) (h : s.takes k kind r = true) (room : (s.kiosk k).replyRoom = false) :
    s.serve k kind r f = (s.modKiosk k KioskPort.takeGood).dropRequest k := by
  unfold State.serve
  rw [if_pos h]
  dsimp only
  rw [good_replyRoom, room]
  rfl

theorem serve_taken (f : State → State) (h : s.takes k kind r = true) (room : (s.kiosk k).replyRoom = true) :
    s.serve k kind r f = f (s.modKiosk k KioskPort.takeGood) := by
  unfold State.serve
  rw [if_pos h]
  dsimp only
  rw [good_replyRoom, if_pos room]

theorem serveManage_service (form : Bool) (f : State → State) (h : s.takes k kind r = true)
    (room : (s.kiosk k).replyRoom = true) (hs : service r.channel ≠ serviceManage) :
    s.serveManage k kind r form f = (s.modKiosk k KioskPort.takeGood).refuse k kind r .badRequest := by
  unfold State.serveManage
  rw [serve_taken _ h room, if_pos hs]

theorem serveManage_locked (form : Bool) (f : State → State) (h : s.takes k kind r = true)
    (room : (s.kiosk k).replyRoom = true) (hs : service r.channel = serviceManage) (hu : (s.kiosk k).unlocked = false) :
    s.serveManage k kind r form f = (s.modKiosk k KioskPort.takeGood).refuse k kind r .locked := by
  unfold State.serveManage
  rw [serve_taken _ h room, if_neg (not_not_intro hs), modKiosk_kiosk_self, takeGood_unlocked, hu]
  rfl

theorem serveManage_form (form : Bool) (f : State → State) (h : s.takes k kind r = true)
    (room : (s.kiosk k).replyRoom = true) (hs : service r.channel = serviceManage) (hu : (s.kiosk k).unlocked = true)
    (hf : form = false) :
    s.serveManage k kind r form f = (s.modKiosk k KioskPort.takeGood).refuse k kind r .badRequest := by
  unfold State.serveManage
  rw [serve_taken _ h room, if_neg (not_not_intro hs), modKiosk_kiosk_self, takeGood_unlocked, hu, hf]
  rfl

theorem serveManage_taken (form : Bool) (f : State → State) (h : s.takes k kind r = true)
    (room : (s.kiosk k).replyRoom = true) (hs : service r.channel = serviceManage) (hu : (s.kiosk k).unlocked = true)
    (hf : form = true) : s.serveManage k kind r form f = f (s.modKiosk k KioskPort.takeGood) := by
  unfold State.serveManage
  rw [serve_taken _ h room, if_neg (not_not_intro hs), modKiosk_kiosk_self, takeGood_unlocked, hu, hf]
  rfl

theorem serveSlot_taken (f : State → SlotId → State) {slot : SlotId} (h : s.takes k kind r = true)
    (room : (s.kiosk k).replyRoom = true) (hs : service r.channel = servicePrint ∨ service r.channel = serviceScan)
    (hp : parseSlot r.payload = some slot) : s.serveSlot k kind r f = f (s.modKiosk k KioskPort.takeGood) slot := by
  unfold State.serveSlot
  rw [serve_taken _ h room, if_neg (by omega), hp]

theorem serveSlot_form (f : State → SlotId → State) (h : s.takes k kind r = true)
    (room : (s.kiosk k).replyRoom = true) (hp : parseSlot r.payload = none) :
    s.serveSlot k kind r f = (s.modKiosk k KioskPort.takeGood).refuse k kind r .badRequest := by
  unfold State.serveSlot
  rw [serve_taken _ h room, hp]
  split <;> rfl

theorem serveSlot_service (f : State → SlotId → State) (h : s.takes k kind r = true)
    (room : (s.kiosk k).replyRoom = true)
    (hs : service r.channel ≠ servicePrint ∧ service r.channel ≠ serviceScan) :
    s.serveSlot k kind r f = (s.modKiosk k KioskPort.takeGood).refuse k kind r .badRequest := by
  unfold State.serveSlot
  rw [serve_taken _ h room, if_pos hs]

end Sys2Proof.Machine
end

