-- ==== Sys2Proof/Tests/Slice0.lean ====
section
/-! SUPPORT. Tests: which commands the link can bring, the worked tables of the chapters, small runs of one step, and a
witness for the hypotheses of every statement, at the boundaries of its clauses. -/

set_option Elab.async false

namespace Sys2Proof.Machine.Test

/-! ### Small states -/

/-- The switch after its store read, nothing configured. -/
def up : State := { State.reset with starting := false }

/-- As `up`, with K0 unlocked. -/
def mgr : State := up.modKiosk 0 fun p => { p with unlocked := true }

/-- K0's reply queue full. -/
def full : State := mgr.modKiosk 0 fun p =>
  { p with control := List.replicate 9 (.reply 0#8 0#8 0#8 .ok [] .nothing) }

/-- A request on a channel. -/
def ask (ch : Byte) (payload : List Byte) : Request := { channel := ch, tag := 7#8, payload := payload }

/-- A management request. -/
def man (payload : List Byte) : Request := ask 0x00#8 payload

/-- The state a taken good frame leaves. -/
def good (s : State) : State := s.modKiosk 0 KioskPort.takeGood

/-- The frame is taken on K0 with reply room. -/
def served (s : State) (kind : Byte) (r : Request) : Bool := s.takes 0 kind r && (s.kiosk 0).replyRoom

/-- Taken with reply room, on the MANAGE service of an unlocked port. -/
def managed (s : State) (kind : Byte) (r : Request) : Bool :=
  served s kind r && decide (service r.channel = serviceManage) && (s.kiosk 0).unlocked

/-- An ACTIVE stream print job of K0 slot 0 on D0. -/
def printJob : Job where
  state := .active
  kind := .print
  channel := 0x20#8
  device := 0
  priority := 0#8
  declaredLength := 0
  complete := false
  received := 0
  sent := 0
  creditLimit := 0
  allocation := []
  freedBlocks := 0
  command := []
  maxBlocks := 0
  held := none
  lineErrors := false
  truncated := false
  paused := false

/-- An ACTIVE scan job of K0 slot 0 on D0. -/
def scanJob : Job := { printJob with kind := .scan, channel := 0x40#8, maxBlocks := 2 }

/-- K0's slot 0 holds the job, and D0 is as `f` makes it. -/
def busy (j : Job) (f : DevicePort → DevicePort) : State :=
  (mgr.setJob 0 (some j)).modDevice 0 fun p => f { p with queue := [0], service := .online }

/-- D0 as `f` makes it, without a job. -/
def port (f : DevicePort → DevicePort) : State := mgr.modDevice 0 f

/-- The record of D0 has a class. -/
def ofClass (c : DeviceClass) (p : DevicePort) : DevicePort := { p with record := { p.record with cls := c } }

/-- K0 as `f` makes it. -/
def link (f : KioskPort → KioskPort) : State := mgr.modKiosk 0 f

/-! ### Well-formed commands -/

theorem test_frame_payload_bound :
    (Instr.jobData 0 (ask 0x20#8 (List.replicate 256 0#8))).wf = true ∧
      (Instr.jobData 0 (ask 0x20#8 (List.replicate 257 0#8))).wf = false ∧
      (Instr.badFrameRequest 0 0#8 (man (List.replicate 257 0#8))).wf = false := by decide +kernel

theorem test_table_record_bound :
    (Instr.tableWriteRoute 0 0#8 0#8 0#8 (List.replicate 254 0#8)).wf = true ∧
      (Instr.tableWriteRoute 0 0#8 0#8 0#8 (List.replicate 255 0#8)).wf = false ∧
      (Instr.tableWriteSpool 0 0#8 0#8 (List.replicate 255 0#8)).wf = false := by decide +kernel

theorem test_received_frame_bound :
    (Instr.frameCheckFailed 0 { chars := [1#8], count := 1, framing := false }).wf = true ∧
      (Instr.frameCheckFailed 0 { chars := [1#8], count := 2, framing := false }).wf = false ∧
      (Instr.frameCheckFailed 0 { chars := List.replicate 264 0#8, count := 264, framing := false }).wf = false := by
  decide +kernel

/-- A frame that is not well formed is not taken. -/
theorem test_long_frame_not_taken : up.takes 0 kindUnlock (man (List.replicate 257 0#8)) = false := by decide +kernel

theorem test_no_word_spells_a_command : decodeTableWord 8 0 = none ∧ decodeTableWord 16 0xFFFF = none := by decide

/-! ### Worked tables -/

theorem test_crc_of_R141 :
    crc16 [0x31#8, 0x32#8, 0x33#8, 0x34#8, 0x35#8, 0x36#8, 0x37#8, 0x38#8, 0x39#8] = 0x29B1#16 := by decide +kernel

/-- The table of R42: set level, clear level, effective clear. -/
theorem test_tight_levels_of_R42 :
    ([(4, 8), (10, 6), (5, 5), (31, 0), (0, 3)].map fun x =>
      SpoolRecord.effectiveClear { tightSet := x.1, tightClear := x.2, onEntry := false, onExit := false }) =
        [8, 11, 6, 32, 3] := by decide

/-- The table of R81: effective clear level of HOLD_SET and HOLD_CLEAR. -/
theorem test_hold_levels_of_R81 :
    ([(24, 8), (4, 6), (10, 10), (1, 5)].map fun x =>
      DeviceRecord.clearLevel { DeviceRecord.reset with holdSet := x.1, holdClear := x.2 }) = [8, 3, 9, 0] := by decide

/-- The table of R106, its sixth quotient by the rule (log entry 30). -/
theorem test_calibration_of_R106 :
    ([(3000, 100, 4300), (1200, -50, 4096), (50, 100, 4300), (0, 1, 4096), (0, 0, 4096), (4095, -2048, 8191),
        (4095, 0, 4096), (4095, 0, 2048)].map fun x : Nat × Int × Nat => calibrate x.1 x.2.1 x.2.2) =
      [3044, 1250, 0, 0, 0, 4095, 4095, 2048] := by decide

/-- The table of R60: START_THRESHOLD, RECEIVED, CREDIT_LIMIT and whether the job becomes READY. -/
theorem test_threshold_of_R60 :
    ([(4, 511, 2048), (4, 512, 2048), (20, 2048, 2048), (4, 256, 256), (4, 0, 0)].map fun x : Nat × Nat × Nat =>
      ({ printJob with state := .loading, received := x.2.1, creditLimit := x.2.2 }.testReady
        { DeviceRecord.reset with startThreshold := x.1 }).state) = [.loading, .ready, .ready, .ready, .loading] := by
  decide

/-! ### One step -/

/-- The queue is taken front first. -/
theorem test_first_in_first_out :
    step { up with pending := [.kioskBreak 0, .kioskBreak 1] } = exec (.kioskBreak 0) { up with pending := [.kioskBreak 1] } ∧
      step up = .next up := by
  constructor <;> simp only [step, up, State.reset]

/-- What a step answers, seen through a test on the state. -/
def after (c : Instr) (s : State) (f : State → Bool) : Bool :=
  match exec c s with
  | .next t => f t
  | _ => false

theorem test_unlock_blank_code :
    after (.unlock 0 (man blankCode)) up (fun t => (t.kiosk 0).unlocked) = true ∧
      after (.unlock 0 (man [1#8, 0#8, 0#8, 0#8, 0#8, 0#8, 0#8, 0#8])) up
        (fun t => !(t.kiosk 0).unlocked && decide ((t.kiosk 0).score = 8)) = true := by decide +kernel

/-- Nothing on a kiosk link is taken before the store is read (log entry 27). -/
theorem test_nothing_before_store_read :
    after (.unlock 0 (man blankCode)) State.reset (fun t => !(t.kiosk 0).unlocked) = true ∧
      after .storeReadComplete State.reset (fun t => !t.starting && decide ((t.kiosk 3).rate = 2)) = true := by
  decide +kernel

/-- A route for every PRINT channel to D0, written and then used by a JOB_OPEN. -/
def routed : State := (mgr.setRoute 0 { RouteEntry.reset with
  enabled := true, matchValue := 0x20#8, mask := 0xE0#8, ports := 0xFFFF#16, action := .accept }).modDevice 0
    fun p => { ofClass .printer p with service := .online }

theorem test_job_opens_on_a_route :
    after (.jobOpen 0 (ask 0x21#8 [1#8, 5#8, 0#8, 1#8, 0#8])) routed (fun t =>
      match t.job 1 with
      | some j => decide (j.state = .loading ∧ j.declaredLength = 256 ∧ j.creditLimit = 256) &&
          decide ((t.device 0).queue = [1] ∧ (t.route 0).hits = 1)
      | none => false) = true := by decide +kernel

theorem test_touch_port_polls_on_resume :
    after (.deviceResume 0 (man [0#8])) ((port (ofClass .touch)).modDevice 0 fun p => { p with service := .offline })
      (fun t => decide ((t.device 0).service = .online) && !(t.device 0).poller.running) = true := by decide +kernel

theorem test_character_is_stored :
    after (.deviceCharReceived 0 0xA5#8 false true)
      (busy scanJob fun p => { ofClass .scanner p with scan := { p.scan with phase := .reception } })
      (fun t => match t.job 0 with
        | some j => decide (j.received = 1 ∧ j.allocation = [0] ∧ t.readBlock 0 0 = 0xA5#8)
        | none => false) = true := by decide +kernel

/-! ### Witnesses: the machine, its invariants and what it computes -/

/-- A queue with a command, and an empty one (StepRunsTheFrontCommand). -/
theorem test_witness_step :
    ({ up with pending := [.kioskBreak 0] } : State).pending = .kioskBreak 0 :: [] ∧ up.pending = [] := ⟨rfl, rfl⟩

/-- K0 has a break waiting to be taken. -/
def waiting : State := { up with pending := [.kioskBreak 0] }

theorem waiting_job (i : JobId) : waiting.job i = none := by
  simp only [waiting, up, State.job, State.reset]; exact Vector.getElem_replicate _

/-- Every invariant has a state that a step leaves for another one. -/
theorem test_witness_invariants :
    MemoryInv waiting ∧ BlocksInv waiting ∧ CountsInv waiting ∧ QueuesInv waiting ∧ PortsInv waiting ∧
      TablesInv waiting ∧ ∃ t, step waiting = .next t := by
  refine ⟨rfl, ?_, ?_, ?_, ?_, ?_, ⟨_, rfl⟩⟩
  · unfold BlocksInv State.blocks
    have hfree : waiting.free = allBlocks := by simp only [waiting, up, State.reset]
    have hchains : (allJobs.flatMap fun i => chainOf (waiting.job i)) = [] := by
      rw [List.flatMap_eq_nil_iff]; intro i _; rw [waiting_job]; rfl
    rw [hfree, hchains, List.append_nil]
  · intro i j h; rw [waiting_job] at h; cases h
  · have hq : ∀ d, (waiting.device d).queue = [] := by decide +kernel
    intro d
    rw [hq d]
    refine ⟨List.nodup_nil, by decide, fun i => ⟨fun h => (by cases h), ?_⟩, ?_⟩
    · rintro ⟨j, h, _⟩; rw [waiting_job] at h; cases h
    · intro i i' j j' h; rw [waiting_job] at h; cases h
  · have hp : ∀ k, waiting.kiosk k = KioskPort.reset := by decide +kernel
    refine ⟨fun k => ?_, fun _ _ _ => waiting_job _⟩
    rw [hp k]
    exact ⟨⟨by decide, rfl⟩, ⟨by decide, by decide, by decide, by decide⟩, by decide, by decide, by decide⟩
  · refine ⟨?_, ?_, ?_, ?_, ⟨by decide, by decide⟩⟩
    · have h : ∀ e, waiting.route e = RouteEntry.reset := by decide +kernel
      intro e; rw [h e]; unfold RouteEntry.ok; decide
    · have h : ∀ p, waiting.panel p = Panel.reset := by decide +kernel
      intro p; rw [h p]; unfold Panel.ok; decide
    · have h : ∀ z, waiting.zone z = Zone.reset := by decide +kernel
      intro z; rw [h z]; unfold Zone.ok; decide
    · have h : ∀ d, (waiting.device d).record = DeviceRecord.reset := by decide +kernel
      intro d; rw [h d]; unfold DeviceRecord.ok oneToByte; decide

/-- K0's control queue as full as R125 lets it be: nine REPLYs, a JOB_END, two CREDITs and the NOTICE. -/
def fullControl : List ControlEntry :=
  .notice :: .jobEnd 0x20#8 0 .done 0 false :: .credit 0x20#8 1 128 :: .credit 0x20#8 2 128 ::
    List.replicate 9 (.reply 0x00#8 0#8 kindStatusRead .ok [] .nothing)

/-- K0 with that queue, and a command that waits. -/
def brimming : State :=
  { up.modKiosk 0 fun p => { p with control := fullControl } with pending := [.transmitStart 0] }

/-- R125: the law of the kiosk ports has a state with every cap reached that a step leaves for another one; a second
CREDIT, a CREDIT beside the JOB_END or a second NOTICE breaks it. -/
theorem test_witness_full_control_queue :
    PortsInv brimming ∧ (∃ t, step brimming = .next t) ∧ fullControl.length = 13 ∧
      ¬ creditsIn (.credit 0x20#8 1 256 :: fullControl) 1 + jobEndsIn (.credit 0x20#8 1 256 :: fullControl) 1 ≤ 1 ∧
      ¬ creditsIn (.credit 0x20#8 0 256 :: fullControl) 0 + jobEndsIn (.credit 0x20#8 0 256 :: fullControl) 0 ≤ 1 ∧
      ¬ noticesIn (.notice :: fullControl) ≤ 1 := by
  refine ⟨⟨fun k => ?_, fun k slot _ => ?_⟩, ⟨_, rfl⟩, by decide, by decide, by decide, by decide⟩
  · have hp : ∀ k, brimming.kiosk k = { KioskPort.reset with control := if k = 0 then fullControl else [] } := by
      decide +kernel
    rw [hp k]
    unfold KioskPort.capsOk KioskPort.controlOk
    refine ⟨⟨Nat.zero_le _, rfl⟩, ?_⟩
    decide +revert
  · have hj : ∀ i, brimming.job i = none := waiting_job
    exact hj _

/-- An ACTIVE stream job of K0 slot 0 with a block, its limit and data of its own. -/
def firstJob : Job := { printJob with received := 10, sent := 3, creditLimit := 128, allocation := [0] }

/-- A LOADING job of K0 slot 1 with a declared length and no block yet. -/
def secondJob : Job := { printJob with state := .loading, declaredLength := 300 }

/-- Both jobs in D0's queue, block 0 off the free list, and a command that waits. -/
def living : State :=
  let s := (((busy firstJob id).setJob 1 (some secondJob)).modDevice 0 fun p => { p with queue := [0, 1] }).setFree
    (allBlocks.drop 1)
  { s with pending := [.rdyChange 0 true] }

theorem living_job : ∀ i, living.job i = if i = 0 then some firstJob else if i = 1 then some secondJob else none := by
  decide +kernel

theorem living_jobs {i : JobId} {j : Job} (h : living.job i = some j) :
    (i = 0 ∧ j = firstJob) ∨ (i = 1 ∧ j = secondJob) := by
  rw [living_job] at h
  split at h
  · rename_i h0; cases h; exact .inl ⟨h0, rfl⟩
  · split at h
    · rename_i h1; cases h; exact .inr ⟨h1, rfl⟩
    · cases h

/-- The invariants of blocks, counts and queues have a state with live jobs that a step leaves for another one. -/
theorem test_witness_invariants_with_jobs :
    MemoryInv living ∧ BlocksInv living ∧ CountsInv living ∧ QueuesInv living ∧ ∃ t, step living = .next t := by
  refine ⟨by unfold MemoryInv; decide +kernel, ?_, ?_, ?_, ⟨_, rfl⟩⟩
  · unfold BlocksInv State.blocks
    have hfree : living.free = allBlocks.drop 1 := by simp only [living, State.setFree]
    have hchains : (allJobs.flatMap fun i => chainOf (living.job i)) = [0] := by decide +kernel
    have hall : allBlocks = [0] ++ allBlocks.drop 1 := by decide +kernel
    rw [hfree, hchains]
    exact List.perm_append_comm.trans (List.Perm.of_eq hall.symm)
  · intro i j h
    rcases living_jobs h with ⟨_, rfl⟩ | ⟨_, rfl⟩ <;> unfold Job.ok <;> decide
  · have hq : ∀ d, (living.device d).queue = if d = 0 then [0, 1] else [] := by decide +kernel
    have hd : firstJob.device = 0 ∧ secondJob.device = 0 := ⟨rfl, rfl⟩
    intro d
    rw [hq d]
    refine ⟨?_, ?_, fun i => ⟨fun h => ?_, ?_⟩, ?_⟩
    · split <;> decide
    · split <;> decide
    · split at h
      · rename_i h0; subst h0
        rcases List.mem_cons.mp h with rfl | h
        · exact ⟨firstJob, by rw [living_job]; rfl, rfl⟩
        · rw [List.mem_singleton] at h; subst h; exact ⟨secondJob, by rw [living_job]; rfl, rfl⟩
      · cases h
    · rintro ⟨j, h, rfl⟩
      rcases living_jobs h with ⟨rfl, rfl⟩ | ⟨rfl, rfl⟩ <;> simp [hd]
    · intro i i' j j' h h' _ _ ha ha'
      rcases living_jobs h with ⟨rfl, rfl⟩ | ⟨rfl, rfl⟩ <;> rcases living_jobs h' with ⟨rfl, rfl⟩ | ⟨rfl, rfl⟩
      · rfl
      · cases ha'
      · cases ha
      · rfl

/-- Every SWAP, MIRROR_X and MIRROR_Y, at the corners of the panel. -/
theorem test_witness_orientation :
    (∀ a b c : Bool, let p : Panel := { Panel.reset with swap := a, mirrorX := b, mirrorY := c }
      p.swap = a ∧ p.mirrorX = b ∧ p.mirrorY = c) ∧
      (∀ x ∈ [0, 4095], ∀ y ∈ [0, 4095], x ≤ 4095 ∧ y ≤ 4095) ∧
      Panel.orient { Panel.reset with swap := true, mirrorX := true } 0 4095 = (0, 0) := by decide

theorem test_witness_route_matches :
    let e : RouteEntry := { RouteEntry.reset with matchValue := 0x20#8, mask := 0xE0#8 }
    let manage : RouteEntry := { RouteEntry.reset with matchValue := 0x00#8, mask := 0xE0#8 }
    ({ e with mask := 0xFF#8 }.mask = 0xFF#8 ∧ e.mask = 0xE0#8 ∧ { e with mask := 0xFE#8 }.mask = 0xFE#8 ∧
      { e with mask := 0xFC#8 }.mask = 0xFC#8 ∧ { e with mask := 0x00#8 }.mask = 0x00#8) ∧
      (0x21#8 &&& e.mask = e.matchValue &&& e.mask) ∧ manage.matchValue &&& manage.mask &&& 0xE0#8 ≠ 0x20#8 &&& manage.mask ∧
      manage.matchValue &&& manage.mask &&& 0xE0#8 ≠ 0x40#8 &&& manage.mask ∧ service 0x3F#8 = servicePrint ∧
      service 0x40#8 = serviceScan := by decide

/-- Ranges and quotients at their ends: 4095, -2048 and 2047, 2048 and 8191; quotients -1, 0, 4095 and 4096. -/
theorem test_witness_calibration :
    calQuotient 0 1 4096 = -1 ∧ calQuotient 0 0 4096 = 0 ∧ calQuotient 4095 0 4096 = 4095 ∧
      calQuotient 4095 (-1) 4096 = 4096 ∧ calQuotient 0 2047 2048 < 0 ∧ 4095 < calQuotient 4095 (-2048) 8191 := by decide

theorem test_witness_zone_axis :
    mapAxis 4095 4095 4095 1 = 0 ∧ mapAxis 0 0 4095 32767 = 0 ∧ mapAxis 4095 0 4095 32767 = 32766 ∧
      mapAxis 0 0 1 2 = 0 ∧ mapAxis 1 0 1 2 = 1 := by decide

/-- Frames of 7 and of 263 characters. -/
theorem test_witness_frame_crc :
    let least := goodFrame 0#8 (man [])
    let most := goodFrame 0#8 (man (List.replicate 256 0#8))
    (least.wf = true ∧ least.framing = false ∧ least.count = 7 ∧ least.count = word16 least.chars 3 + 7) ∧
      most.wf = true ∧ most.framing = false ∧ most.count = 263 ∧ most.count = word16 most.chars 3 + 7 := by
  decide +kernel

theorem test_witness_records_round_trip :
    Panel.reset.ok ∧ Panel.ok { Panel.reset with
        address := 0xFE#8, offsetX := -2048, offsetY := 2047, gainX := 2048, gainY := 8191, missRun := 8, clamps := 65535 } ∧
      Zone.reset.ok ∧ Zone.ok { Zone.reset with x1 := 4095, y1 := 4095, width := 32767, height := 32767 } ∧
      DeviceRecord.reset.ok ∧ KioskPort.reset.quota ≤ 2048 ∧ SpoolRecord.reset.ok ∧
      SpoolRecord.ok { SpoolRecord.reset with tightSet := 31, tightClear := 31 } := by
  refine ⟨?_, ?_, ?_, ?_, ?_, by decide, ?_, ?_⟩
  · unfold Panel.ok; decide
  · unfold Panel.ok; decide
  · unfold Zone.ok; decide
  · unfold Zone.ok; decide
  · unfold DeviceRecord.ok oneToByte; decide
  · unfold SpoolRecord.ok; decide
  · unfold SpoolRecord.ok; decide

/-! ### Witnesses: flags and links -/

theorem test_witness_raising :
    let s := up.setNotice (some 0) 0x1FFF#13
    (Flag.kioskWarn.isIn s.flags = false ∧ s.noticePort = some 0 ∧ Flag.kioskWarn.isIn s.noticeMask = true ∧
      (s.kiosk 0).control.any ControlEntry.isNotice = false) ∧
      Flag.kioskWarn.isIn (s.raise .kioskWarn).flags = true := by decide +kernel

theorem test_witness_line_events :
    (up.starting = false ∧ (up.kiosk 0).link ≠ .isolated) ∧ State.reset.starting = true ∧
      (let s := link fun p => { p with link := .isolated, cleanCount := 126 }
       s.starting = false ∧ (s.kiosk 0).link = .isolated ∧ (s.kiosk 0).cleanCount < 127) ∧
      let s := link fun p => { p with link := .isolated, cleanCount := 127 }
      (s.kiosk 0).link = .isolated ∧ 127 ≤ (s.kiosk 0).cleanCount := by decide +kernel

/-- One bad frame for each check, at the bounds 6, 257 and 264. -/
theorem test_witness_frame_checks :
    let long : RxFrame := { chars := List.replicate 263 0#8, count := 264, framing := false }
    let short : RxFrame := { chars := List.replicate 6 0#8, count := 6, framing := false }
    let big : RxFrame := { chars := [0#8, 0#8, 0#8, 1#8, 1#8, 0#8, 0#8], count := 7, framing := false }
    let wrong : RxFrame := { chars := List.replicate 7 0#8, count := 7, framing := false }
    RxFrame.firstFailure { wrong with framing := true } = some .charFraming ∧
      RxFrame.firstFailure long = some .overlength ∧ RxFrame.firstFailure short = some .lengthMismatch ∧
      256 < word16 big.chars 3 ∧ RxFrame.firstFailure wrong = some .crcError ∧
      (List.replicate 256 (0#8 : Byte)).length ≤ 256 := by decide +kernel

/-- A frame of one character, which fails. -/
def runt : RxFrame := { chars := [0#8], count := 1, framing := true }

/-- Scores 87, 88, 95, 96, 119, 120 and 247 stay below the isolating score; 248 and 255 do not. -/
theorem test_witness_frame_failure :
    (∀ n ∈ [0, 87, 88, 95, 96, 119, 120, 247], let s := link fun p => { p with score := n }
      s.starting = false ∧ (s.kiosk 0).link ≠ .isolated ∧ (s.kiosk 0).gathered = RxFrame.empty ∧
        (s.kiosk 0).score < 248) ∧
      (∀ n ∈ [248, 255], let s := link fun p => { p with score := n, link := .degraded, gathered := runt }
        s.starting = false ∧ (s.kiosk 0).link ≠ .isolated ∧ (s.kiosk 0).gathered = runt ∧ 248 ≤ (s.kiosk 0).score) ∧
      runt.wf = true ∧ 0 < runt.count ∧ RxFrame.firstFailure runt = some .charFraming := by decide +kernel

/-- Every request named can be taken without reply room, and can be turned away. -/
theorem test_witness_taken_or_dropped :
    (∀ kind ∈ [kindJobOpen, kindJobClose, kindJobAbort, kindJobQuery, kindUnlock, kindLock, kindTableRead,
        kindTableReadNext, kindTableWriteNext, kindStatusRead, kindPortStatus, kindDeviceStatus, kindFlagsClear,
        kindNoticeSet, kindStoreWrite, kindSwitchReset, kindPortReset, kindDeviceDrain, kindDeviceResume,
        kindDeviceReset, kindDeviceBreak],
      full.takes 0 kind (man []) = true ∧ State.reset.takes 0 kind (man []) = false) ∧
      (full.kiosk 0).replyRoom = false := by decide +kernel

/-- The TABLE_WRITE rows, a TABLE_WRITE that names no writable table and one that does, a bad frame and a JOB_DATA, each
taken without reply room and turned away; a taken good frame at the scores where the link state changes. -/
theorem test_witness_writes_dropped :
    (∀ p ∈ [[0#8, 0#8], [1#8, 0#8], [2#8, 0#8], [3#8, 0#8], [4#8, 0#8], [4#8, 16#8], [5#8, 0#8], [0#8], ([] : List Byte)],
      full.takes 0 kindTableWrite (man p) = true ∧ State.reset.takes 0 kindTableWrite (man p) = false) ∧
      (([0#8] : List Byte).length < 2 ∧ 4 < byteAt [5#8, 0#8] 0 ∧ byteAt [4#8, 0#8] 0 ≤ 4) ∧
      (full.takes 0 0x06#8 (man []) = true ∧ State.reset.takes 0 0x06#8 (man []) = false ∧
        isJobKind 0x06#8 = false ∧ isManageKind 0x06#8 = false) ∧
      (isManageKind kindLock = true ∧ isJobKind kindLock = false ∧ service (man []).channel = serviceManage) ∧
      State.reset.takes 0 kindJobData (ask 0x20#8 []) = false ∧
      (∀ n ∈ [128, 129], (KioskPort.takeGood { KioskPort.reset with link := .degraded, score := n }).link =
        if n = 128 then .normal else .degraded) := by decide +kernel

/-- Reply room at 8 and 9 REPLY entries, with a held place and without; other entries take no place (R126). -/
theorem test_witness_reply_room :
    (∀ x ∈ [(8, false, true), (8, true, false), (9, false, false), (7, true, true)],
      KioskPort.replyRoom { KioskPort.reset with
        control := .notice :: List.replicate x.1 (.reply 0#8 0#8 0#8 .ok [] .nothing), replyHeld := x.2.1 } = x.2.2) := by
  decide

/-- Each way a service and KIND can name no request: services 3 and 7, unknown KINDs 0x06 and 0x22, a job KIND on
MANAGE, a management KIND on PRINT. -/
theorem test_witness_bad_frame :
    ([(0x60#8, 0x01#8), (0xE0#8, 0x01#8), (0x00#8, 0x06#8), (0x00#8, 0x22#8), (0x00#8, kindJobClose),
        ((0x20#8, kindDeviceDrain) : Byte × Byte)].all fun x =>
      decide (x.2 ≠ kindJobData) && served up x.2 (ask x.1 []) &&
        decide (2 < service x.1 ∨ (isJobKind x.2 = false ∧ isManageKind x.2 = false) ∨
          (isJobKind x.2 = true ∧ service x.1 = serviceManage) ∨
          (isManageKind x.2 = true ∧ service x.1 ≠ serviceManage))) = true := by
  decide +kernel

theorem test_witness_management_refusals :
    (served mgr kindLock (ask 0x20#8 []) = true ∧ service 0x20#8 ≠ serviceManage) ∧
      (served up kindLock (man []) = true ∧ (up.kiosk 0).unlocked = false ∧ service 0x00#8 = serviceManage) ∧
      (served mgr kindLock (man [0#8]) = true ∧ (mgr.kiosk 0).unlocked = true ∧ (man [0#8]).payload.length ≠ 0) := by
  decide +kernel

/-! ### Witnesses: jobs -/

/-- K0's port opens slot 0 for printing, unknown length. -/
def openPrint : Request := ask 0x20#8 [0#8, 0#8, 0#8, 0#8, 0#8]

/-- `routed` with D0's class, route action and queue length chosen. -/
def openState (c : DeviceClass) (a : Action) (n : Nat) : State :=
  (routed.setRoute 0 { routed.route 0 with action := a }).modDevice 0 fun p =>
    { ofClass c p with queue := List.replicate n 0 }

theorem test_witness_job_open_refusals :
    (served mgr kindJobOpen (ask 0x20#8 [3#8]) = true ∧ parseOpen 0x20#8 [3#8] = none) ∧
      (served (busy printJob id) kindJobOpen openPrint = true ∧ (parseOpen 0x20#8 openPrint.payload).isSome = true ∧
        (good (busy printJob id)).occupied 0 0 = true) ∧
      (let s := link fun p => { p with link := .degraded, score := 129 }
       (good s).occupied 0 0 = false ∧ ((good s).kiosk 0).link = .degraded) ∧
      ((good mgr).occupied 0 0 = false ∧ ((good mgr).kiosk 0).link ≠ .degraded ∧ (good mgr).lookup 0x20#8 0 = none) ∧
      (∀ x ∈ [(DeviceClass.printer, Action.deny, 0), (.touch, .accept, 0), (.printer, .accept, 16), (.printer, .accept, 15)],
        served (openState x.1 x.2.1 x.2.2) kindJobOpen openPrint = true ∧
          (good (openState x.1 x.2.1 x.2.2)).lookup 0x20#8 0 = some 0) ∧
      ((openState .touch .accept 0).device 0).record.cls.serves .print = false ∧
      ((openState .printer .accept 16).device 0).record.cls.serves .print = true := by decide +kernel

/-- JOB_OPEN forms at the bounds of R31: payloads of 4, 5 and 6 bytes for PRINT; a COMMAND of 64 and 65 bytes and a
payload one byte short and one too long for SCAN; SLOT 2 and 3; the MANAGE service. -/
theorem test_witness_open_forms :
    ([(0x20#8, 4, 0#8, 0#8, false), (0x20#8, 5, 2#8, 0#8, true), (0x20#8, 5, 3#8, 0#8, false),
        (0x20#8, 6, 0#8, 0#8, false), (0x40#8, 4, 0#8, 0#8, false), (0x40#8, 69, 0#8, 64#8, true),
        (0x40#8, 70, 0#8, 65#8, false), (0x40#8, 5, 0#8, 1#8, false), (0x40#8, 7, 0#8, 1#8, false),
        ((0x00#8, 5, 0#8, 0#8, false) : Byte × Nat × Byte × Byte × Bool)].all fun x =>
      (parseOpen x.1 (([x.2.2.1, 0#8, 0#8, 0#8, x.2.2.2.1] ++ List.replicate 70 0#8).take x.2.1)).isSome ==
        x.2.2.2.2) = true := by decide +kernel

/-- A slot is occupied by its JOB_END alone; the lowest of two entries that match decides, and a disabled one does not. -/
theorem test_witness_occupied_and_lookup :
    (let s := link fun p => { p with control := [.jobEnd 0x20#8 1 .done 0 false] }
     s.occupied 0 1 = true ∧ s.occupied 0 0 = false ∧ s.job 1 = none) ∧
      (routed.setRoute 1 (routed.route 0)).lookup 0x20#8 0 = some 0 ∧
      ((routed.setRoute 1 (routed.route 0)).setRoute 0 RouteEntry.reset).lookup 0x20#8 0 = some 1 := by decide +kernel

/-- An admitted JOB_OPEN of each kind, the device queue holding 15; a scan's command of 0 and of 64 bytes. -/
theorem test_witness_job_open_admits :
    (service 0x20#8 = servicePrint ∧ service 0x40#8 = serviceScan ∧ (List.replicate 64 (0#8 : Byte)).length ≤ 64) ∧
      (let s := openState .printer .accept 15
       (parseOpen 0x20#8 openPrint.payload).isSome = true ∧ (good s).occupied 0 0 = false ∧
        ((good s).kiosk 0).link ≠ .degraded ∧ ((good s).route 0).action = .accept ∧
        ((good s).device 0).record.cls.serves .print = true ∧ ((good s).device 0).queue.length < 16) ∧
      let s := (openState .scanner .accept 0).setRoute 0 { routed.route 0 with matchValue := 0x40#8 }
      (parseOpen 0x40#8 [0#8, 0#8, 0#8, 2#8, 0#8]).isSome = true ∧ (good s).lookup 0x40#8 0 = some 0 ∧
        served s kindJobOpen (ask 0x40#8 [0#8, 0#8, 0#8, 2#8, 0#8]) = true ∧
        ((good s).device 0).record.cls.serves .scan = true := by decide +kernel

/-- One byte of data at an offset. -/
def dataAt (o : Nat) : Request := ask 0x20#8 ([0#8] ++ be24 o ++ [0x55#8])

/-- A LOADING job with one block and ten bytes received. -/
def tenBytes : State :=
  busy { printJob with state := .loading, received := 10, creditLimit := 128, allocation := [0] } id

/-- Offsets 9, 10, 11 and 127 against RECEIVED 10, and 128 against CREDIT_LIMIT 128. -/
theorem test_witness_job_data :
    (∀ o ∈ [9, 10, 11, 127, 128, 16777215], tenBytes.takes 0 kindJobData (dataAt o) = true ∧
        word24 (dataAt o).payload 1 = o ∧ (dataAt o).payload.length = 5 ∧ service (dataAt o).channel = servicePrint) ∧
      (∃ j, (good tenBytes).job 0 = some j ∧ j.kind = .print ∧ j.received = 10 ∧ j.creditLimit = 128) ∧
      ((∀ j, (good mgr).job 0 = some j → j.kind = .scan) ∧ mgr.takes 0 kindJobData (dataAt 0) = true) ∧
      (mgr.takes 0 kindJobData (ask 0x40#8 [0#8]) = true ∧ service 0x40#8 ≠ servicePrint ∧
        3 ≤ byteAt [3#8, 0#8, 0#8, 0#8, 0#8] 0) := by
  refine ⟨by decide +kernel, ⟨_, rfl, by decide +kernel, by decide +kernel, by decide +kernel⟩, ⟨?_, by decide +kernel⟩,
    by decide +kernel⟩
  intro j h
  have hn : (good mgr).job 0 = none := by decide +kernel
  rw [hn] at h; cases h

/-- Offsets 127 and 128 lie in two blocks of the chain. -/
theorem test_witness_data_stored :
    MemoryInv up ∧ (0 : BlockId) ≠ 1 ∧ [(0 : BlockId), 1].Nodup ∧ 0 * 128 ≤ 127 ∧
      127 + [0xAA#8, (0xBB#8 : Byte)].length ≤ (0 + 2) * 128 ∧ [(0 : BlockId), 1][(127 + 0) / 128 - 0]? = some 0 ∧
      [(0 : BlockId), 1][(127 + 1) / 128 - 0]? = some 1 := by
  refine ⟨rfl, by decide, by decide, by decide, by decide, rfl, rfl⟩

theorem test_witness_loading :
    let j := { printJob with state := .loading }
    (j.kind = .print ∧ j.state = .loading ∧ j.complete = false) ∧
      ({ j with complete := true }.complete = true) ∧ 1 * 128 ≤ { j with received := 128 }.received ∧
      { j with received := 127 }.received < 1 * 128 ∧ scanJob.kind = .scan ∧ printJob.state ≠ .loading := by decide

/-- JOB_CLOSE, JOB_ABORT and JOB_QUERY of slot 0 on both services. -/
def slot0 (ch : Byte) : Request := ask ch [0#8]

theorem test_witness_slot_requests :
    ([(kindJobClose, 0x20#8), (kindJobClose, 0x40#8), (kindJobAbort, 0x20#8), (kindJobAbort, 0x40#8),
        (kindJobQuery, 0x20#8), ((kindJobQuery, 0x40#8) : Byte × Byte)].all fun x =>
      served (busy printJob id) x.1 (slot0 x.2) && decide ((slot0 x.2).payload = [byte (0 : SlotId).val])) = true ∧
      (service 0x20#8 = servicePrint ∧ service 0x40#8 = serviceScan) ∧ (good mgr).job 0 = none ∧
      (∀ j ∈ [printJob, { printJob with complete := true }, { printJob with declaredLength := 1 },
          { printJob with state := .loading }, scanJob, { scanJob with state := .ready },
          { scanJob with held := some .aborted }], (good (busy j id)).job 0 = some j) := by decide +kernel

/-- A live print job and a live scan job whose JOB_QUERY and JOB record are stated. -/
theorem test_witness_job_reports :
    ([printJob, scanJob, { scanJob with allocation := [7], truncated := true, held := some .aborted }].all fun j =>
      served (busy j id) kindJobQuery (slot0 j.channel) && decide ((good (busy j id)).job 0 = some j)) = true ∧
      (∀ b : Bool, (encodeJob (byte (if b then 3 else 0)) (some { printJob with allocation := [7] })).drop 13 =
        [0#8, 0x10#8, 0x07#8]) := by decide +kernel

/-- What refuses a slot request: the MANAGE service, no byte, two bytes, SLOT 3. -/
theorem test_witness_slot_refusals :
    ([kindJobClose, kindJobAbort, kindJobQuery].all fun kind =>
      [(0x00#8, [0#8]), (0x20#8, []), (0x40#8, [0#8, 0#8]), ((0x20#8, [3#8]) : Byte × List Byte)].all fun x =>
        served mgr kind (ask x.1 x.2) &&
          decide ((service x.1 ≠ servicePrint ∧ service x.1 ≠ serviceScan) ∨ x.2.length ≠ 1 ∨ 3 ≤ byteAt x.2 0)) = true := by
  decide +kernel

/-- An ACTIVE scan job of slot 0, a frame of it on the line or none. -/
def onTheLine (held : Option EndReason) : State :=
  (busy { scanJob with held := held } id).modKiosk 0 fun p => { p with line := .frame, source := .scan 0 }

theorem test_witness_held_endings :
    (served (onTheLine none) kindJobAbort (slot0 0x40#8) = true ∧ ((onTheLine none).kiosk 0).line = .frame ∧
      ((onTheLine none).kiosk 0).source = .scan (jobSlot 0) ∧ jobKiosk 0 = 0 ∧ jobSlot 0 = 0 ∧
      (onTheLine none).job 0 = some scanJob ∧ scanJob.kind = .scan ∧ scanJob.state = .active ∧ scanJob.held = none) ∧
      (onTheLine (some .aborted)).job 0 = some { scanJob with held := some .aborted } ∧
      (((busy scanJob id).kiosk 0).line = .idle ∧ mgr.job 0 = none) ∧ printJob.kind = .print ∧ printJob.state = .active ∧
      secondJob.state ≠ .active := by decide +kernel

/-- A job that qualifies and one that does not: window, quota, need and COMPLETE at their bounds, tight and not. -/
theorem test_witness_qualifying :
    ((busy printJob id).qualifies 0 = true ∧ (busy printJob id).nextQualifying = some 0 ∧ (busy printJob id).free ≠ [] ∧
      mgr.nextQualifying = none ∧ ((busy printJob id).setFree []).free = []) ∧
      (∀ x ∈ [(15, false, true), (16, false, false), (1, true, true), (2, true, false)],
        let s := busy { printJob with allocation := List.replicate x.1 0 } id
        (s.setTight x.2.1).qualifies 0 = x.2.2) ∧
      (∀ x ∈ [(2, true), (1, false)],
        ((busy { printJob with allocation := [0] } id).modKiosk 0 fun p => { p with quota := x.1 }).qualifies 0 = x.2) ∧
      (∀ x ∈ [(129, true), (128, false)],
        (busy { printJob with declaredLength := x.1, allocation := [0] } id).qualifies 0 = x.2) ∧
      (busy { printJob with complete := true } id).qualifies 0 = false := by decide +kernel

/-- A CREDIT of the slot in a control queue and none. -/
theorem test_witness_credit :
    let s := link fun p => { p with control := [.notice, .credit 0x20#8 0 128, .notice] }
    (s.kiosk 0).control = [.notice] ++ .credit 0x20#8 0 128 :: [.notice] ∧
      (∀ e ∈ [ControlEntry.notice], match e with | .credit _ t _ => t ≠ 0 | _ => True) ∧ (mgr.kiosk 0).control = [] ∧
      ((s.handCredit 0 0x20#8 0 256).kiosk 0).control = [.notice, .credit 0x20#8 0 256, .notice] := by
  refine ⟨by decide +kernel, ?_, by decide +kernel, by decide +kernel⟩
  intro e he; rw [List.mem_singleton] at he; subst he; trivial

theorem test_witness_grant :
    (mgr.setFree [0]).free = 0 :: [] ∧ (busy printJob id).job 0 = some printJob ∧
      (∀ n ∈ [(255, false), (256, false), (511, true), (512, true)],
        let s := (up.setFree (List.replicate n.1 0)).setTight n.2
        s.free.length = n.1 ∧ s.tight = n.2 ∧ s.spoolRecord.tightSet * 64 = 256 ∧
          max s.spoolRecord.tightClear (s.spoolRecord.tightSet + 1) * 64 = 512) := by decide +kernel

theorem test_witness_endings :
    let s := busy { printJob with allocation := [0], sent := 1, received := 1 } id
    ((s.job 0).isSome = true ∧ (∀ n, n ≠ 0 → s.job n = none)) ∧ s.tight = false ∧ s.spoolRecord.tightSet * 64 = 256 ∧
      (s.setFree (List.replicate 256 1)).free.length = 256 := by decide +kernel

/-! ### Witnesses: management -/

theorem test_witness_unlock_lock :
    (served up kindUnlock (ask 0x20#8 blankCode) = true ∧ served up kindUnlock (man [0#8]) = true) ∧
      (served up kindUnlock (man blankCode) = true ∧ blankCode.length = 8 ∧ blankCode = (good up).store.code) ∧
      (served up kindUnlock (man (List.replicate 8 1#8)) = true ∧ List.replicate 8 (1#8 : Byte) ≠ (good up).store.code) ∧
      managed mgr kindLock (man []) = true ∧ up.noticePort ≠ some 0 ∧
      (up.setNotice (some 0) 1#13).noticePort = some 0 := by decide +kernel

/-- The last index inside and the first outside each table; table codes 6 and 7; a cursor at both. -/
theorem test_witness_table_reads :
    (∀ t ∈ [TableId.route, .panel, .zone, .device, .kiosk, .job, .contact],
      managed mgr kindTableRead (man [byte t.code, byte (t.size - 1)]) = true ∧ t.size - 1 < t.size ∧ t.size < 256 ∧
        managed mgr kindTableRead (man [byte t.code, byte t.size]) = true) ∧
      (managed mgr kindTableRead (man [7#8, 0#8]) = true ∧ 7 ≤ (7#8 : Byte).toNat) ∧
      (managed mgr kindTableReadNext (man []) = true ∧ (mgr.kiosk 0).cursor = none) ∧
      (∀ i ∈ [159, 160], let s := link fun p => { p with cursor := some (.contact, i) }
        managed s kindTableReadNext (man []) = true ∧ (s.kiosk 0).cursor = some (.contact, i)) := by decide +kernel

/-- A TABLE_WRITE payload. -/
def put (t i : Byte) (record : List Byte) : Request := man ([t, i] ++ record)

/-- A valid record of each writable table, by its index 0. -/
def goodRecord : TableId → List Byte
  | .panel => encodePanel Panel.reset
  | .zone => encodeZone Zone.reset
  | .device => encodeDevice DeviceRecord.reset
  | .kiosk => encodeKiosk KioskPort.reset
  | _ => encodeRoute RouteEntry.reset

theorem test_witness_table_write_checks :
    (∀ t ∈ [TableId.route, .panel, .zone, .device, .kiosk],
      served mgr kindTableWrite (ask 0x20#8 ([byte t.code, 0#8] ++ goodRecord t)) = true ∧
        served up kindTableWrite (put (byte t.code) 0#8 (goodRecord t)) = true ∧
        managed mgr kindTableWrite (put (byte t.code) 0#8 []) = true ∧ ([] : List Byte).length ≠ t.recordSize ∧
        managed mgr kindTableWrite (put (byte t.code) (byte t.size) (goodRecord t)) = true ∧
        (goodRecord t).length = t.recordSize ∧ t.size ≤ (byte t.size).toNat) ∧
      (managed mgr kindTableWrite (man [0#8]) = true ∧ managed mgr kindTableWrite (man [5#8, 0#8]) = true ∧
        4 < byteAt [5#8, 0#8] 0) ∧
      (managed mgr kindTableWriteNext (man []) = true ∧ (mgr.kiosk 0).cursor = none) ∧
      (∀ t ∈ [TableId.route, .panel, .zone, .device, .kiosk],
        let s := link fun p => { p with cursor := some (t, 0) }
        managed s kindTableWriteNext (man (goodRecord t)) = true ∧ (good s).checkWrite t 0 (goodRecord t) = .ok) ∧
      (managed (link fun p => { p with cursor := some (.job, 0) }) kindTableWriteNext (man []) = true) ∧
      let s := link fun p => { p with cursor := some (.kiosk, 17) }
      managed s kindTableWriteNext (man (goodRecord .kiosk)) = true ∧ TableId.size .kiosk ≤ 17 := by decide +kernel

/-- The spool record, a TABLE_WRITE of no writable table and a TABLE_WRITE_NEXT: off MANAGE, LOCKED, and of a wrong
length. -/
theorem test_witness_other_write_refusals :
    ([[4#8, 16#8], [4#8, 16#8, 0#8, 0#8, 0#8, 0#8], [5#8, 0#8], ([0#8] : List Byte)].all fun p =>
      served mgr kindTableWrite (ask 0x20#8 p) && served up kindTableWrite (man p) && managed mgr kindTableWrite (man p)) =
        true ∧
      (served mgr kindTableWriteNext (ask 0x20#8 []) = true ∧ served up kindTableWriteNext (man []) = true) ∧
      service 0x20#8 ≠ serviceManage ∧ (up.kiosk 0).unlocked = false ∧
      (∀ p ∈ [[0#8, 0#8, 0#8], ([0#8, 0#8, 0#8, 0#8, 0#8] : List Byte)], p.length ≠ 4) := by decide +kernel

/-- A TABLE_WRITE_NEXT that the table's own checks turn away, for each check. -/
theorem test_witness_write_next_refused :
    (let s := link fun p => { p with cursor := some (.route, 0) }
     let r := [0#8, 0#8, 0#8, 0#8, 0#8, 0x20#8, 0#8, (0#8 : Byte)]
     managed s kindTableWriteNext (man r) = true ∧ (good s).checkWrite .route 0 r = .badRequest) ∧
      (let s := (busy printJob id).modKiosk 0 fun p => { p with cursor := some (.device, 0) }
       managed s kindTableWriteNext (man (goodRecord .device)) = true ∧
        (good s).checkWrite .device 0 (goodRecord .device) = .badState) ∧
      mgr.checkWrite .kiosk 16 (encodeSpool State.reset.spoolRecord) = .ok ∧
      mgr.checkWrite .kiosk 17 (goodRecord .kiosk) = .outOfRange ∧ mgr.checkWrite .job 0 [] = .badRequest := by
  decide +kernel

/-- R162: the codes that a device record may not hold, multidrop without TOUCH and with it; the clamps at 0, 1 and 2. -/
theorem test_witness_device_record :
    ([(4#8, 0#8, 0#8, false), (3#8, 0#8, 0#8, true), (3#8, 4#8, 0#8, false), (3#8, 3#8, 0#8, true),
        (2#8, 3#8, 0#8, false), (1#8, 2#8, 2#8, true), ((1#8, 2#8, 3#8, false) : Byte × Byte × Byte × Bool)].all fun x =>
      (decodeDevice ([x.1, x.2.1, 0#8, 0#8, 0#8, x.2.2.1] ++ List.replicate 10 0#8)).isSome == x.2.2.2) = true ∧
      ([(0#8, 1, 2), (1#8, 1, 2), ((2#8, 2, 2) : Byte × Nat × Nat)].all fun n =>
        (decodeDevice (List.replicate 6 0#8 ++ List.replicate 10 n.1)).map (fun d => (d.faultLimit, d.endGap)) ==
          some n.2) = true := by decide +kernel

/-- Records that are stored and records that are refused, at the bounds of their fields. -/
theorem test_witness_table_writes :
    (managed mgr kindTableWrite (put 0#8 31#8 (goodRecord .route)) = true ∧
      (decodeRoute (goodRecord .route)).isSome = true ∧
      decodeRoute [0#8, 0#8, 0#8, 0#8, 0#8, 0x20#8, 0#8, 0#8] = none ∧
      decodeRoute [0#8, 0#8, 0#8, 0#8, 0#8, 0x08#8, 0#8, 0#8] = none ∧
      (decodeRoute [0#8, 0#8, 0#8, 0#8, 0#8, 0x17#8, 0#8, 0#8]).isSome = true) ∧
      (managed mgr kindTableWrite (put 2#8 63#8 (goodRecord .zone)) = true ∧
        (decodeZone (goodRecord .zone)).isSome = true ∧ decodeZone ([0#8, 16#8] ++ List.replicate 14 0#8) = none ∧
        decodeZone ([0#8, 0#8, 16#8] ++ List.replicate 13 0#8) = none ∧
        decodeZone ([0#8, 0#8, 0#8, 0#8, 0#8, 1#8] ++ List.replicate 10 0#8) = none) ∧
      (managed mgr kindTableWrite (put 1#8 15#8 (goodRecord .panel)) = true ∧
        (decodePanel Panel.reset (goodRecord .panel)).isSome = true ∧
        decodePanel Panel.reset (List.replicate 16 0#8) = none ∧
        decodePanel Panel.reset ([0#8, 8#8, 1#8] ++ List.replicate 13 0#8) = none ∧
        decodePanel Panel.reset ([0#8, 0#8, 255#8] ++ List.replicate 13 0#8) = none) ∧
      (managed mgr kindTableWrite (put 3#8 7#8 (goodRecord .device)) = true ∧
        (decodeDevice (goodRecord .device)).isSome = true ∧ decodeDevice ([4#8] ++ List.replicate 15 0#8) = none) ∧
      (managed mgr kindTableWrite (put 4#8 15#8 [3#8, 0#8, 8#8, 0#8]) = true ∧
        managed mgr kindTableWrite (put 4#8 0#8 [4#8, 0#8, 0xFF#8, 0xFF#8]) = true ∧
        managed mgr kindTableWrite (put 4#8 16#8 [31#8, 255#8, 3#8, 0#8]) = true) := by decide +kernel

/-- An enabled panel that clashes with the enabled entry of P1 on a single-drop port, and one that does not. -/
theorem test_witness_panel_clash :
    let s := mgr.setPanel 1 { Panel.reset with enabled := true }
    let x : Panel := { Panel.reset with enabled := true }
    (∃ q, q ≠ (0 : PanelId) ∧ (s.panel q).enabled = true ∧ (s.panel q).device = x.device ∧
        (s.device x.device).record.format ≠ .multidrop) ∧
      ¬ (Panel.reset.enabled = true) := by
  refine ⟨⟨1, by decide +kernel, by decide +kernel, by decide +kernel, by decide +kernel⟩, by decide⟩

/-- A poll of P0 in each step, P0 among those to come, and an ATN pin that is active, for a panel and a device write. -/
theorem test_witness_write_effects :
    (∀ st ∈ [PollStep.sending, .awaiting 5, .receiving [1#8], .settling true, .settling false],
      let p := (port fun p => { p with poller := { p.poller with current := some (0, st), pending := [0, 1] } }).device 0
      p.poller.current = some (0, st) ∧ p.poller.pending = [0, 1]) ∧
      (mgr.device 0).poller.current = none ∧
      (let s := (busy printJob id).modDevice 0 fun p => { ofClass .printer p with service := .offline, atnPin := true }
       (s.device 0).queue = [0] ∧ s.job 0 = some printJob ∧ (s.device 0).record.cls = .printer ∧
        (s.device 0).service = .offline ∧ ((s.device 0).atnPin != (s.device 0).record.atnLow) = true) ∧
      ((mgr.device 0).atnPin != (mgr.device 0).record.atnLow) = false ∧
      (∀ b : Fin 4, { DeviceRecord.reset with atnBlanking := b }.atnBlanking = b) := by decide +kernel

/-- A port that may be written, one that is ONLINE, and one with a held ending. -/
theorem test_witness_device_write :
    ((mgr.device 0).service = .disabled ∧ (mgr.device 0).queue = []) ∧
      ¬ ((busy printJob id).device 0).service = .offline ∧
      (let s := busy { scanJob with held := some .aborted } fun p => { p with service := .offline }
       (s.device 0).service = .offline ∧ 0 ∈ (s.device 0).queue ∧
        s.job 0 = some { scanJob with held := some .aborted }) ∧ (mgr.panel 0).device = 0 := by decide +kernel

theorem test_witness_status :
    managed mgr kindStatusRead (man []) = true ∧ managed mgr kindPortStatus (man [15#8]) = true ∧
      managed mgr kindPortStatus (man [16#8]) = true ∧ 16 ≤ (16#8 : Byte).toNat ∧
      managed mgr kindDeviceStatus (man [7#8]) = true ∧ managed mgr kindDeviceStatus (man [8#8]) = true := by
  decide +kernel

theorem test_witness_flags_notices :
    managed mgr kindFlagsClear (man [0x1F#8, 0xFF#8]) = true ∧ managed mgr kindNoticeSet (man [0#8, 0#8]) = true ∧
      managed mgr kindNoticeSet (man [0#8, 1#8]) = true ∧ BitVec.ofNat 13 (word16 [0#8, 0#8] 0) = 0#13 ∧
      BitVec.ofNat 13 (word16 [0#8, 1#8] 0) ≠ 0#13 ∧ (∀ n, mgr.noticePort ≠ some n) ∧ mgr.flags &&& 1#13 = 0#13 ∧
      (mgr.setFlags 1#13).flags &&& 1#13 ≠ 0#13 := by decide +kernel

/-- K1 is the notice port and holds a NOTICE when K0 asks for it. -/
theorem test_witness_notice_port_moves :
    let s := (mgr.setNotice (some 1) 1#13).modKiosk 1 fun p => { p with control := [.notice] }
    managed s kindNoticeSet (man [0#8, 1#8]) = true ∧ s.noticePort = some 1 ∧
      after (.noticeSet 0 (man [0#8, 1#8])) s (fun t => decide (t.noticePort = some 0 ∧ (t.kiosk 1).control = [])) =
        true := by decide +kernel

theorem test_witness_store :
    (∀ c ∈ [0#8, 3#8, (4#8 : Byte)], managed mgr kindStoreWrite (man (List.replicate 8 0#8 ++ [c])) = true ∧
        byteAt (List.replicate 8 0#8 ++ [c]) 8 = c.toNat) ∧
      mgr.store.writing = none ∧ up.starting = false ∧ State.reset.starting = true ∧
      (mgr.setStore { mgr.store with writing := some { code := blankCode, rate := 0, port := 0, channel := 0#8, tag := 0#8 } }).store.writing
        ≠ none := by decide +kernel

/-! ### Witnesses: resets and service -/

theorem test_witness_resets :
    (managed mgr kindSwitchReset (man []) = true ∧ (good mgr).switchResetWaits = false) ∧
      (let s := link fun p => { p with afterFrame := .switchReset }
       managed s kindSwitchReset (man []) = true ∧ (good s).switchResetWaits = true) ∧
      (∀ n ∈ [0#8, 15#8, (16#8 : Byte)], managed mgr kindPortReset (man [n]) = true) ∧
      (∀ a ∈ [AfterSend.switchReset, .portReset],
        let s := link fun p => { p with line := .frame, source := .control, afterFrame := a }
        (s.kiosk 0).line = .frame ∧ (s.kiosk 0).source = .control ∧ (s.kiosk 0).afterFrame = a) := by decide +kernel

/-- Each service state, with and without device work. -/
theorem test_witness_drain_resume :
    (∀ st ∈ [ServiceState.disabled, .offline, .online, .draining, .fault .online, .fault .draining, .fault .offline],
      let s := port fun p => { p with service := st }
      managed s kindDeviceDrain (man [0#8]) = true ∧ managed s kindDeviceResume (man [0#8]) = true ∧
        (s.device 0).service = st ∧ s.hasWork 0 = false) ∧
      (busy printJob id).hasWork 0 = true ∧ ((port (ofClass .touch)).device 0).record.cls = .touch ∧
      ((port id).device 0).record.cls ≠ .touch := by decide +kernel

/-- A SWITCH_RESET whose REPLY waits in the queue of another port; DEVICE 8; a drained touch port on a multidrop and on
a single-drop line. -/
theorem test_witness_service_bounds :
    (mgr.modKiosk 5 fun p => { p with control := [.reply 0#8 0#8 kindSwitchReset .ok [] .switchReset] }).switchResetWaits =
        true ∧
      (managed mgr kindDeviceDrain (man [8#8]) = true ∧ managed mgr kindDeviceResume (man [8#8]) = true ∧
        managed mgr kindDeviceReset (man [8#8]) = true) ∧
      (∀ f ∈ [(Format.f8N1, [(2 : PanelId)]), (.multidrop, [2, 9])],
        let s := ((mgr.setPanel 9 { Panel.reset with enabled := true }).setPanel 2
          { Panel.reset with enabled := true }).modDevice 0 fun p =>
            { ofClass .touch p with service := .online, record := { p.record with cls := .touch, format := f.1 } }
        managed s kindDeviceDrain (man [0#8]) = true ∧ s.polledPanels 0 = f.2) := by decide +kernel

/-- A DEVICE_RESET with an ACTIVE scan job: no frame on the line, one on it, and an ending held already. -/
theorem test_witness_reset_scan :
    (∀ s ∈ [busy scanJob id, onTheLine none, onTheLine (some .aborted)],
      managed s kindDeviceReset (man [0#8]) = true ∧ s.activeJob 0 = some 0 ∧ scanJob.device = 0) ∧
      after (.deviceReset 0 (man [0#8])) (busy scanJob id) (fun t => decide (t.job 0 = none)) = true ∧
      after (.deviceReset 0 (man [0#8])) (onTheLine none)
        (fun t => decide (t.job 0 = some { scanJob with held := some .failedDeviceReset })) = true ∧
      after (.deviceReset 0 (man [0#8])) (onTheLine (some .aborted))
        (fun t => decide (t.job 0 = some { scanJob with held := some .aborted })) = true := by decide +kernel

theorem test_witness_reset_break :
    (managed (busy printJob id) kindDeviceReset (man [0#8]) = true ∧ (busy printJob id).activeJob 0 = some 0 ∧
      printJob.kind = .print ∧ printJob.held = none) ∧
      (∀ n ∈ [7#8, (8#8 : Byte)], managed mgr kindDeviceBreak (man [n]) = true) ∧
      (mgr.device 0).service ≠ .offline ∧
      (∀ b ∈ [BreakState.none, .running], let s := port fun p => { p with service := .offline, brk := b }
        managed s kindDeviceBreak (man [0#8]) = true ∧ (s.device 0).service = .offline ∧ (s.device 0).brk = b) := by
  decide +kernel

/-! ### Witnesses: the transmit line -/

/-- A touch event of P0 contact 0. -/
def press : TouchEntry := { contact := 0, zone := 0, kind := .down, kx := 0, ky := 0 }

/-- A scan job with a full block to deliver. -/
def oneBlock : Job := { scanJob with received := 128, allocation := [0] }

theorem test_witness_transmit_start :
    (State.reset.starting = true ∧ ((link fun p => { p with link := .isolated }).kiosk 0).link = .isolated ∧
      ((link fun p => { p with line := .gap }).kiosk 0).line ≠ .idle) ∧
      (mgr.starting = false ∧ (mgr.kiosk 0).link ≠ .isolated ∧ (mgr.kiosk 0).line = .idle) ∧
      ((link fun p => { p with echoPending := true }).kiosk 0).echoPending = true ∧
      ((link fun p => { p with touch := [press] }).kiosk 0).touch = press :: [] ∧
      ((link fun p => { p with control := [.notice] }).kiosk 0).control = .notice :: [] ∧
      (let s := busy oneBlock id
       (s.kiosk 0).touch = [] ∧ (s.kiosk 0).control = [] ∧ (s.kiosk 0).echoPending = false ∧
        [(s.kiosk 0).scanLast + 1, (s.kiosk 0).scanLast + 2, (s.kiosk 0).scanLast + 3].find? (s.scanOffer 0) = some 0 ∧
        s.job (jobIx 0 0) = some oneBlock) ∧
      [(mgr.kiosk 0).scanLast + 1, (mgr.kiosk 0).scanLast + 2, (mgr.kiosk 0).scanLast + 3].find? (mgr.scanOffer 0) = none ∧
      (∀ c, mgr.contact c = .free) := by decide +kernel

/-- A binding of K0's zone Z0 whose last point is the origin. -/
def held (visible owed : Bool) : Binding where
  owner := 0
  zone := 0
  x0 := 0
  y0 := 0
  x1 := 4095
  y1 := 4095
  width := 1920
  height := 1080
  visible := visible
  upOwed := owed
  last := some (0, 0)

/-- A slot's block is offered when it is full, or when it is the last of a job in DELIVERY; else it is not. An owed UP
is placed where the queue has room, and passed over where it has none. -/
theorem test_witness_offers_and_owed :
    (∀ x ∈ [(128, Phase.reception, [0], true), (127, .reception, [0], false), (127, .delivery, [0], true),
        ((0, .delivery, [], false) : Nat × Phase × List BlockId × Bool)],
      (busy { scanJob with received := x.1, allocation := x.2.2.1 } fun p =>
        { p with scan := { p.scan with phase := x.2.1 } }).scanOffer 0 0 = x.2.2.2) ∧
      (∀ n ∈ [3, 4],
        let s := (mgr.setContact 3 (.bound (held true true))).modKiosk 0 fun p => { p with touch := List.replicate n press }
        s.contact 3 = .bound (held true true) ∧ (held true true).upOwed = true ∧ (held true true).owner = 0 ∧
          (held true true).last = some (0, 0) ∧ (s.kiosk 0).touch.length = n) ∧
      mgr.contact 3 = .free := by decide +kernel

/-- R138: the character 0x0F on the link, and the pair's level beside a frame's characters. -/
theorem test_link_character :
    linkCharBits 0x0F#8 = [false, true, true, true, true, false, false, false, false, true] ∧
      (∀ x ∈ [(LineState.idle, true), (.frame, true), (.brk, false), (.gap, true)],
        KioskPort.restLevel { KioskPort.reset with line := x.1 } = x.2) := by decide

/-- R152–R154: the device data output beside a character's bits: space through a running break alone; mark after a
DEVICE_RESET that cuts a break, and one that cuts a character. -/
theorem test_device_rest_level :
    (∀ x ∈ [(BreakState.none, true), (.owed, true), (.requested, true), (.running, false)],
      DevicePort.restLevel { DevicePort.reset with brk := x.1 } = x.2) ∧
      (let p := { ofClass .printer DevicePort.reset with brk := .running }
       p.restLevel = false ∧ p.resetEngine.restLevel = true) ∧
      (let p := { ofClass .printer DevicePort.reset with shift := some { data := 0#8, address := false } }
       p.sentBits ≠ none ∧ p.resetEngine.sentBits = none ∧ p.resetEngine.restLevel = true) := by decide

/-- R81 with HOLD_SET 4 and HOLD_CLEAR 2 or 6 (effective 3): chains at the levels and between them; no reception. -/
theorem test_watermark :
    (∀ x ∈ [(2, 4, false, true), (2, 3, true, true), (2, 3, false, false), (2, 2, true, false), (6, 3, true, false)],
      let s := busy { scanJob with allocation := List.replicate x.2.1 0 } fun p =>
        { p with record := { p.record with holdSet := 4, holdClear := x.1 },
                 scan := { p.scan with phase := .reception, watermark := x.2.2.1 } }
      ((s.evalWatermark 0).device 0).scan.watermark = x.2.2.2) ∧
      (busy scanJob id).evalWatermark 0 = busy scanJob id := by decide +kernel

theorem test_witness_transmit_end :
    (∀ f ∈ [FrameSource.none, .touch, .control, .scan 0],
      let s := link fun p => { p with line := .frame, source := f }
      (s.kiosk 0).line = .frame ∧ (s.kiosk 0).source = f ∧ (s.kiosk 0).afterFrame = .nothing ∧
        s.job (jobIx 0 0) = none) ∧
      (let s := (busy oneBlock id).modKiosk 0 fun p => { p with line := .frame, source := .scan 0 }
       (s.kiosk 0).line = .frame ∧ (s.kiosk 0).source = .scan 0 ∧ s.job (jobIx 0 0) = some oneBlock) ∧
      (mgr.kiosk 0).line ≠ .frame ∧ ((link fun p => { p with line := .brk }).kiosk 0).line = .brk ∧
      ((link fun p => { p with line := .gap }).kiosk 0).line = .gap := by decide +kernel

/-! ### Witnesses: device ports -/

/-- A level as qualified and another, for every ATN_BLANKING code; with and without a period. -/
theorem test_witness_atn :
    (∀ b : Fin 4, let s := port fun p => { p with record := { p.record with atnBlanking := b } }
      (s.device 0).record.atnBlanking = b ∧ (true != (s.device 0).record.atnLow) ≠ (s.device 0).atn ∧
        (false != (s.device 0).record.atnLow) = (s.device 0).atn ∧ (s.device 0).blanking = .stopped) ∧
      ((port fun p => { p with blanking := .running 2 }).device 0).blanking = .running 2 ∧
      (∀ st ∈ [ServiceState.disabled, .offline, .online, .draining, .fault .online],
        ((port fun p => { p with service := st }).device 0).service = st) ∧
      mgr.activeJob 0 = none ∧ (busy printJob id).activeJob 0 = some 0 ∧ (busy printJob id).job 0 = some printJob := by
  decide +kernel

/-- An ACTIVE scan job in each phase when FAULT is entered and left, and timers that a pause has suspended. -/
theorem test_witness_fault_with_jobs :
    (∀ ph ∈ [Phase.reception, .delivery],
      let s := busy scanJob fun p => { p with scan := { p.scan with phase := ph } }
      s.activeJob 0 = some 0 ∧ s.job 0 = some scanJob ∧ (s.device 0).scan.phase = ph) ∧
      (∀ w : Bool, let p := (port fun p => { p with
          record := { p.record with holdMode := .auto },
          scan := { p.scan with firstByte := .suspended, gap := .suspended, watermark := w } }).device 0
        p.scan.firstByte = .suspended ∧ p.scan.gap = .suspended ∧ p.record.holdMode = .auto ∧ p.scan.watermark = w) ∧
      ((mgr.device 0).scan.firstByte = .stopped ∧ (mgr.device 0).scan.gap = .stopped) := by decide +kernel

theorem test_witness_transmitter :
    (mgr.device 0).shift = none ∧
      (let s := port fun p =>
        { p with shift := some { data := 1#8, address := false },
                 poller := { p.poller with current := some (0, .sending) } }
       (s.device 0).shift ≠ none ∧ (s.device 0).poller.current = some (0, .sending) ∧ (s.device 0).holding = none) ∧
      (let s := port fun p => { p with holding := some { data := 1#8, address := false }, rdyPin := true }
       (s.device 0).queue = [] ∧ (s.device 0).brk = .none ∧ (s.device 0).service ≠ .draining ∧
        (s.device 0).service ≠ .fault .draining ∧ (s.device 0).shift = none ∧ (s.device 0).holding ≠ none) ∧
      ((port fun p => { p with brk := .running }).device 0).brk = .running ∧
      (let j := { printJob with received := 128, sent := 126, allocation := [0], creditLimit := 128 }
       ((busy j id).device 0).holding = none ∧ (busy j id).activeJob 0 = some 0 ∧ (busy j id).job 0 = some j ∧
        j.kind = .print ∧ j.paused = false ∧ j.sent < j.received ∧ j.sent ≠ j.freedBlocks * 128 + 127 ∧
        ¬ (j.complete = true ∧ j.sent + 1 = j.declaredLength)) := by decide +kernel

/-- A character that waits. -/
def waits : Option TxChar := some { data := 0x0F#8, address := false }

/-- A byte of a PAUSED job stays in the holding stage on RDY and at the end of the character before it (R20, R69, R76).
-/
theorem test_paused_byte_stays :
    ([{ printJob with paused := true }, { scanJob with paused := true }].all fun j =>
      let s := busy j fun p => { p with holding := waits, service := .fault .online }
      after (.rdyChange 0 true) s (fun t => decide ((t.device 0).holding = waits ∧ (t.device 0).shift = none)) &&
        after (.characterSent 0) (s.modDevice 0 fun p => { p with shift := waits, rdyPin := true })
          (fun t => decide ((t.device 0).holding = waits ∧ (t.device 0).shift = none))) = true := by decide +kernel

/-- The bits of a character with four ones, and the address bit of a poll character (R152). -/
theorem test_sent_bits :
    (∀ x ∈ [(Format.f8N1, [false, true, true, true, true, false, false, false, false, true]),
        (.f8E1, [false, true, true, true, true, false, false, false, false, false, true]),
        (.f8O1, [false, true, true, true, true, false, false, false, false, true, true]),
        (.multidrop, [false, true, true, true, true, false, false, false, false, false, true])],
      DevicePort.sentBits { DevicePort.reset with
        record := { DeviceRecord.reset with format := x.1 }, shift := waits } = some x.2) ∧
      DevicePort.reset.sentBits = none := by decide +kernel

/-- What follows on a port: a finished job and none, a break owed and requested, a drain with work and without. -/
theorem test_witness_going_on :
    (let j := { printJob with complete := true, declaredLength := 1, received := 1, sent := 1 }
     let s := busy j id
     s.finishedPrint 0 = some 0 ∧ s.job 0 = some j ∧ j.device = 0 ∧ (s.device 0).queue.Nodup ∧
      (s.modDevice 0 fun p => { p with shift := waits }).finishedPrint 0 = none ∧ mgr.finishedPrint 0 = none) ∧
      (∀ b ∈ [BreakState.requested, .owed],
        let p := (port fun p => { p with service := .online, brk := b }).device 0
        p.brk = b ∧ p.shift = none ∧ p.holding = none ∧ p.service = .online) ∧
      (∀ st ∈ [ServiceState.draining, .fault .draining],
        let s := port fun p => { p with service := st }
        (s.device 0).service = st ∧ s.activeJob 0 = none ∧ (s.device 0).scan.flush = false ∧ (s.device 0).brk = .none ∧
          (busy printJob fun p => { p with service := st }).activeJob 0 ≠ none) := by
  refine ⟨by decide +kernel, by decide +kernel, by decide +kernel⟩

/-- Slots 0 to 3 wait READY on an ONLINE port with priorities 5, 3, 3 and 4: the scheduler takes slot 1, a print job or
a scan job. -/
theorem test_witness_schedule :
    [JobKind.print, .scan].all (fun kind =>
      let ready := fun n : Byte => { printJob with kind := kind, state := .ready, priority := n }
      let s := (((((mgr.setJob 0 (some (ready 5#8))).setJob 1 (some (ready 3#8))).setJob 2 (some (ready 3#8))).setJob 3
        (some (ready 4#8))).modDevice 0 fun p => { p with queue := [0, 1, 2, 3], service := .online })
      decide ((s.device 0).queue = [0] ++ 1 :: [2, 3] ∧ s.activeJob 0 = none ∧ (s.device 0).scan.flush = false ∧
        (s.device 0).brk = .none ∧ s.job 1 = some (ready 3#8)) &&
        (match (s.schedule 0).job 1 with | some j => decide (j.state = .active) | none => false)) = true := by
  decide +kernel

/-- The next byte is the last of its block, or of the job, or neither; COMMAND bytes are left, or none; the job is
PAUSED; nothing is left to hand. -/
theorem test_witness_feeding :
    (∀ x ∈ [(126, 128, 0, false, false), (127, 128, 0, false, true), (9, 10, 10, true, true),
        ((8, 10, 10, true, false) : Nat × Nat × Nat × Bool × Bool)],
      let j := { printJob with
        sent := x.1, received := x.2.1, declaredLength := x.2.2.1, complete := x.2.2.2.1, allocation := [0] }
      let s := busy j id
      s.activeJob 0 = some 0 ∧ s.job 0 = some j ∧ (s.device 0).holding = none ∧ j.sent < j.received ∧
        decide (j.sent = j.freedBlocks * 128 + 127 ∨ (j.complete = true ∧ j.sent + 1 = j.declaredLength)) =
          x.2.2.2.2) ∧
      (∀ n ∈ [0, 1, 2], let s := busy { scanJob with command := [1#8, 2#8] } fun p =>
          { p with scan := { p.scan with commandLeft := n } }
        s.activeJob 0 = some 0 ∧ (s.device 0).scan.commandLeft = n ∧ (s.device 0).holding = none) ∧
      (busy { printJob with paused := true } id).activeJob 0 = some 0 ∧ printJob.received ≤ printJob.sent ∧
      ((port fun p => { p with holding := waits }).device 0).holding ≠ none := by decide +kernel

/-- A stream job that is out of data, the underrun timer stopped and running; a byte that may move, and one that RDY, a
break or a pause holds. -/
theorem test_witness_underrun_and_move :
    (∀ u ∈ [Timer.stopped, .running 10], let s := busy printJob fun p => { p with underrun := u }
      s.activeJob 0 = some 0 ∧ s.job 0 = some printJob ∧ printJob.complete = false ∧ printJob.sent = printJob.received ∧
        (s.device 0).underrun = u) ∧
      (∀ x ∈ [(true, BreakState.none, false, true), (false, .none, false, false), (true, .running, false, false),
          (true, .none, true, false)],
        let s := busy { printJob with paused := x.2.2.1 } fun p =>
          { p with holding := waits, rdyPin := x.1, brk := x.2.1 }
        decide (((s.moveTx 0).device 0).shift = waits) = x.2.2.2 ∧ s.activeJob 0 = some 0) := by decide +kernel

/-- Every timer stopped and running, with an ACTIVE job and without. -/
theorem test_witness_timers :
    let t := Timer.running 1
    (let p := mgr.device 0
     p.faultLimit = .stopped ∧ p.underrun = .stopped ∧ p.scan.firstByte = .stopped ∧ p.scan.gap = .stopped ∧
      p.scan.flush = false ∧ p.lineHeld = false ∧ mgr.activeJob 0 = none) ∧
      (let s := busy scanJob fun p =>
        { p with faultLimit := t, underrun := t, scan := { p.scan with firstByte := t, gap := t, flush := true } }
       (s.device 0).faultLimit = t ∧ (s.device 0).underrun = t ∧ (s.device 0).scan.firstByte = t ∧
        (s.device 0).scan.gap = t ∧ (s.device 0).scan.flush = true ∧ (s.device 0).lineHeld = false ∧
        s.activeJob 0 = some 0 ∧ s.job 0 = some scanJob ∧ scanJob.device = 0) ∧
      ((port fun p => { p with faultLimit := t }).device 0).faultLimit = t ∧
      ((port fun p => { p with lineHeld := true }).device 0).lineHeld = true := by decide +kernel

/-- A scanner port in reception with a job that has a place, needs a block, and cannot have one; and RECEIVED at its
last value. -/
theorem test_witness_characters :
    (let s := busy scanJob fun p => { ofClass .scanner p with scan := { p.scan with phase := .reception } }
     (s.device 0).record.cls = .scanner ∧ (s.device 0).service = .online ∧ (s.device 0).lineHeld = false ∧
      (s.device 0).scan.flush = false ∧ (s.device 0).scan.phase = .reception ∧ s.activeJob 0 = some 0 ∧
      s.job 0 = some scanJob ∧ scanJob.allocation = [] ∧ scanJob.received < 16777215 ∧
      s.holdingOf (jobKiosk 0) < (s.kiosk (jobKiosk 0)).quota ∧ scanJob.allocation.length < scanJob.maxBlocks ∧
      (s.setFree []).free = [] ∧ (s.setFree [5]).free = [5]) ∧
      (let j := { scanJob with allocation := [0], received := 127 }
       j.allocation.getLast? = some 0 ∧ j.tailFill < 128 ∧ { j with received := 128 }.tailFill = 128 ∧
        { j with maxBlocks := 1 }.maxBlocks ≤ j.allocation.length) ∧
      16777215 ≤ { scanJob with received := 16777215 }.received ∧
      (∀ c ∈ [DeviceClass.unused, .printer, .scanner, .touch], ((port (ofClass c)).device 0).record.cls = c) ∧
      (∀ c ∈ [DeviceClass.printer, .scanner],
        ((port fun p => { ofClass c p with service := .offline }).device 0).service = .offline) ∧
      ((port fun p => { p with lineHeld := true }).device 0).lineHeld = true := by decide +kernel

/-- A reception that stops for want of a block, with a block to deliver and with none; and where a character goes: the
tail block's next place, a fresh block's first, or nowhere. -/
theorem test_witness_truncation :
    (∀ a ∈ [([] : List BlockId), [0]], let j := { scanJob with allocation := a }
      let s := busy j fun p => { ofClass .scanner p with scan := { p.scan with phase := .reception } }
      s.job 0 = some j ∧ j.device = 0 ∧ s.activeJob 0 = some 0) ∧
      (MemoryInv mgr ∧ mgr.activeJob 0 = none) ∧
      { scanJob with allocation := [0], received := 127 }.tailFill = 127 ∧
      { scanJob with allocation := [0], received := 128 }.tailFill = 128 ∧ mgr.free.head? = some 0 := by
  refine ⟨by decide +kernel, ⟨rfl, by decide +kernel⟩, by decide, by decide, by decide +kernel⟩

/-- P0 enabled on D0, an ONLINE touch port; each step of its poll. -/
def polled (c : Option (PanelId × PollStep)) (rest : List PanelId) : State :=
  (mgr.setPanel 0 { Panel.reset with enabled := true }).modDevice 0 fun p =>
    { ofClass .touch p with
      service := .online,
      poller := { p.poller with running := true, pending := rest, current := c, interval := .running 10 } }

theorem test_witness_poller :
    (mgr.polledPanels 0 = [] ∧ (polled none []).polledPanels 0 = 0 :: []) ∧
      ((polled none []).device 0).poller.interval = .running 10 ∧ (mgr.device 0).poller.interval = .stopped ∧
      (∀ st ∈ [PollStep.sending, .awaiting 5, .receiving [1#8], .settling true, .settling false],
        ((polled (some (0, st)) []).device 0).poller.current = some (0, st) ∧
          ((polled (some (0, st)) []).device 0).poller.pending = [] ∧
          ((polled (some (0, st)) []).device 0).lineHeld = false) ∧
      ((polled (some (0, .settling true)) [1]).device 0).poller.pending = 1 :: [] ∧
      (∀ n ∈ [6, 7, 8], ((mgr.setPanel 0 { Panel.reset with missRun := n }).panel 0).missRun = n) := by decide +kernel

/-- Replies of COUNT 0, 8 and 9; a complete reply; reports at the bounds of EVENT and CONTACT. -/
theorem test_witness_poll_replies :
    (byteAt ([] ++ [0#8]) 0 = 0 ∧ ([] ++ [(0#8 : Byte)]).length = 1 + 5 * 0) ∧ byteAt ([] ++ [8#8]) 0 ≤ 8 ∧
      8 < byteAt ([] ++ [9#8]) 0 ∧ ([1#8, 0#8, 0#8, 0#8, 0#8] ++ [(0#8 : Byte)]).length = 1 + 5 * 1 ∧
      (0x19 + 0xFF + 0xFF + 0xFF + 0xE9) % 256 = 0xFF ∧
      parseReport [0x19#8, 0xFF#8, 0xFF#8, 0xFF#8, 0xE9#8] = some (.down, 9, 4095, 4095) ∧
      parseReport [0x39#8, 0#8, 0#8, 0#8, 0xC6#8] = some (.up, 9, 0, 0) ∧
      parseReport [0x40#8, 0#8, 0#8, 0#8, 0xBF#8] = none ∧ parseReport [0x1A#8, 0#8, 0#8, 0#8, 0xE5#8] = none := by
  decide

/-- P0's canvas is one zone of K0. -/
def zoned : State := mgr.setZone 0 { Zone.reset with enabled := true, x1 := 4095, y1 := 4095, width := 1920, height := 1080 }

theorem test_witness_contacts :
    (mgr.contact 0 = .free ∧ mgr.searchZone 0 (0, 0) = none ∧ zoned.searchZone 0 (0, 0) = some 0 ∧
      zoned.searchZone 0 (4095, 4095) = some 0 ∧ (zoned.kiosk 0).link ≠ .isolated) ∧
      ((zoned.modKiosk 0 fun p => { p with link := .isolated }).kiosk 0).link = .isolated ∧
      (mgr.setContact 0 .unzoned).contact 0 = .unzoned ∧
      (∀ b ∈ [held true false, held false false, held true true], (zoned.setContact 0 (.bound b)).contact 0 = .bound b) ∧
      ((held true false).last = some ((held true false).map (0, 0)) ∧
        (held true false).last ≠ some ((held true false).map (4095, 0))) := by decide +kernel

/-- Queues of 0, 3 and 4 entries, with a MOVE and without. -/
theorem test_witness_touch_queue :
    let move := { press with kind := .move }
    let other := { press with kind := .move, contact := 1 }
    (insertTouch [press, move] { move with kx := 5 } = ([press, { move with kx := 5 }], .joined, false) ∧
      insertTouch [press, press, press] move = ([press, press, press, move], .joined, false) ∧
      insertTouch [press, press, press, press] move = ([press, press, press, press], .discarded, true) ∧
      insertTouch [press, other, press, press] { press with kind := .up } =
        ([press, press, press, { press with kind := .up }], .joined, true) ∧
      insertTouch [press, press, press, press] press = ([press, press, press, press], .discarded, true) ∧
      insertTouch [press, press, press, press] { press with kind := .up } = ([press, press, press, press], .owed, true)) ∧
      (let s := (zoned.setContact 3 (.bound (held true true))).modKiosk 0 fun p => { p with touch := [press, press, press] }
       (s.kiosk 0).touch.length = 3 ∧ s.contact 3 = .bound (held true true) ∧ (held true true).owner = 0 ∧
        ∀ n : ContactIx, n < 3 → s.contact n = .free) := by decide +kernel

end Sys2Proof.Machine.Test
end

section
/-! Proofs about the route table (chapter 2): what MASK and MATCH compare. -/

namespace Sys2Proof.Machine

/-! ### Equality under a mask -/

/-- R26's reading of a mask: two values agree under it when they have the same digit wherever it has a 1. -/
theorem and_eq_and_iff_getLsbD {w : Nat} (x y m : BitVec w) :
    x &&& m = y &&& m ↔ ∀ i, i < w → m.getLsbD i = true → x.getLsbD i = y.getLsbD i := by
  constructor
  · intro h i _ hm
    have hbit : (x &&& m).getLsbD i = (y &&& m).getLsbD i := by rw [h]
    simpa [hm] using hbit
  · intro h
    refine BitVec.eq_of_getLsbD_eq fun i hi => ?_
    cases hm : m.getLsbD i with
    | false => simp [hm]
    | true => simp [hm, h i hi hm]

/-- A mask of 1s above k 0s compares the quotients by 2 ^ k: each mask that R26 names is one of these. -/
theorem and_allOnes_shiftLeft_eq_iff {w : Nat} (x y : BitVec w) (k : Nat) :
    x &&& (BitVec.allOnes w <<< k) = y &&& (BitVec.allOnes w <<< k) ↔ x.toNat / 2 ^ k = y.toNat / 2 ^ k := by
  rw [and_eq_and_iff_getLsbD]
  constructor
  · intro h
    refine Nat.eq_of_testBit_eq fun j => ?_
    rw [Nat.testBit_div_two_pow, Nat.testBit_div_two_pow, BitVec.testBit_toNat, BitVec.testBit_toNat]
    by_cases hj : j + k < w
    · exact h (j + k) hj (by simp; omega)
    · rw [BitVec.getLsbD_of_ge x _ (by omega), BitVec.getLsbD_of_ge y _ (by omega)]
  · intro h i _ hm
    have hk : k ≤ i := by simp at hm; omega
    have hbit : (x.toNat / 2 ^ k).testBit (i - k) = (y.toNat / 2 ^ k).testBit (i - k) := by rw [h]
    simpa [Nat.testBit_div_two_pow, BitVec.testBit_toNat, Nat.sub_add_cancel hk] using hbit

/-! ### When an entry matches -/

theorem RouteEntry.matches_iff (e : RouteEntry) (ch : Byte) :
    e.matches ch = true ↔ ch &&& e.mask = e.matchValue &&& e.mask := decide_eq_true_iff

/-- R26: MASK of 1s above k 0s selects MATCH's group of 2 ^ k channels. -/
theorem RouteEntry.matches_iff_div_eq (e : RouteEntry) (ch : Byte) (k : Nat)
    (hmask : e.mask = BitVec.allOnes 8 <<< k) :
    e.matches ch = true ↔ ch.toNat / 2 ^ k = e.matchValue.toNat / 2 ^ k := by
  rw [RouteEntry.matches_iff, hmask, and_allOnes_shiftLeft_eq_iff]

/-- R26: MATCH's digits at positions not compared have no effect. -/
theorem RouteEntry.matches_congr_matchValue (e : RouteEntry) (ch m : Byte)
    (h : m &&& e.mask = e.matchValue &&& e.mask) :
    RouteEntry.matches { e with matchValue := m } ch = e.matches ch := by
  rw [Bool.eq_iff_iff, RouteEntry.matches_iff, RouteEntry.matches_iff, h]

/-! ### The service that an entry names -/

/-- Bits 7–5 are the service. -/
theorem service_eq_iff (ch c : Byte) : service ch = service c ↔ ch &&& 0xE0#8 = c &&& 0xE0#8 :=
  (and_allOnes_shiftLeft_eq_iff ch c 5).symm

/-- A matched channel has its service's digits at the high positions that the entry compares. -/
theorem RouteEntry.service_digits_of_matches {e : RouteEntry} {ch c : Byte} (hm : e.matches ch = true)
    (hs : service ch = service c) :
    e.matchValue &&& e.mask &&& 0xE0#8 = c &&& 0xE0#8 &&& e.mask := by
  rw [← (e.matches_iff ch).mp hm, ← (service_eq_iff ch c).mp hs, BitVec.and_assoc, BitVec.and_assoc,
    BitVec.and_comm e.mask]

/-- R26: an entry whose compared positions name neither PRINT nor SCAN matches no channel of those services. -/
theorem RouteEntry.matches_eq_false_of_other_service (e : RouteEntry) (ch : Byte)
    (hprint : e.matchValue &&& e.mask &&& 0xE0#8 ≠ 0x20#8 &&& e.mask)
    (hscan : e.matchValue &&& e.mask &&& 0xE0#8 ≠ 0x40#8 &&& e.mask)
    (hs : service ch = servicePrint ∨ service ch = serviceScan) : e.matches ch = false := by
  refine Bool.eq_false_iff.mpr fun hm => ?_
  obtain hs | hs := hs
  · exact hprint (RouteEntry.service_digits_of_matches (c := 0x20#8) hm hs)
  · exact hscan (RouteEntry.service_digits_of_matches (c := 0x40#8) hm hs)

/-- Settles O11: each mask that R26 names is a run of 1s above k 0s, with k = 0 for 0xFF, 5 for 0xE0, 1 for 0xFE,
2 for 0xFC and 8 for 0x00. -/
theorem routeEntryMatches : Obligations.RouteEntryMatches := by
  intro e ch
  refine ⟨?_, ?_, e.matches_iff_div_eq ch 5, e.matches_iff_div_eq ch 1, e.matches_iff_div_eq ch 2, ?_,
    e.matches_congr_matchValue ch, e.matches_eq_false_of_other_service ch⟩
  · rw [RouteEntry.matches_iff, and_eq_and_iff_getLsbD]
  · intro hmask
    rw [e.matches_iff_div_eq ch 0 hmask, pow_zero, Nat.div_one, Nat.div_one, BitVec.toNat_inj]
  · intro hmask
    rw [e.matches_iff_div_eq ch 8 hmask, Nat.div_eq_of_lt ch.isLt, Nat.div_eq_of_lt e.matchValue.isLt]

end Sys2Proof.Machine
end

section
/-! Proofs about the touch mapper (chapter 7): the orientation of a calibrated point. -/

namespace Sys2Proof.Machine

/-! ### Reflection of an axis (R108, step 2) -/

/-- R108, step 2: a canvas coordinate, reflected when its axis is mirrored. -/
def reflect (mirror : Bool) (c : Nat) : Nat := if mirror then 4095 - c else c

@[simp] theorem reflect_false (c : Nat) : reflect false c = c := rfl

@[simp] theorem reflect_true (c : Nat) : reflect true c = 4095 - c := rfl

/-- Reflection maps the canvas onto itself. -/
theorem reflect_le {c : Nat} (mirror : Bool) (h : c ≤ 4095) : reflect mirror c ≤ 4095 := by
  cases mirror with
  | false => exact h
  | true => exact Nat.sub_le 4095 c

/-! ### Orientation: the exchange, then the reflection of each canvas axis -/

namespace Panel

theorem orient_of_not_swap {p : Panel} (hs : p.swap = false) (x y : Nat) :
    p.orient x y = (reflect p.mirrorX x, reflect p.mirrorY y) := by simp [orient, reflect, hs]

theorem orient_of_swap {p : Panel} (hs : p.swap = true) (x y : Nat) :
    p.orient x y = (reflect p.mirrorX y, reflect p.mirrorY x) := by simp [orient, reflect, hs]

/-- R108: an oriented point stays within the canvas. -/
theorem orient_le (p : Panel) {x y : Nat} (hx : x ≤ 4095) (hy : y ≤ 4095) :
    (p.orient x y).1 ≤ 4095 ∧ (p.orient x y).2 ≤ 4095 := by
  cases hs : p.swap with
  | false => rw [orient_of_not_swap hs]; exact ⟨reflect_le _ hx, reflect_le _ hy⟩
  | true => rw [orient_of_swap hs]; exact ⟨reflect_le _ hy, reflect_le _ hx⟩

/-- R108: the canvas point of a report is the orientation of its calibrated values. -/
theorem canvas_eq_orient (p : Panel) (x y : Nat) :
    p.canvas x y = p.orient (calibrate x p.offsetX p.gainX) (calibrate y p.offsetY p.gainY) := rfl

/-! ### The clamp count (R107) -/

/-- R107: the count after a report depends on the count before it and on the offset and gain of each axis. -/
theorem clamps_countClamp (p : Panel) (x y : Nat) :
    (p.countClamp x y).clamps =
      if calClamped x p.offsetX p.gainX || calClamped y p.offsetY p.gainY then min 65535 (p.clamps + 1)
      else p.clamps := by
  unfold countClamp
  split <;> rfl

/-- R108: the clamp decision is made before the orientation. -/
theorem clamps_countClamp_orientation (p : Panel) (swap mirrorX mirrorY : Bool) (x y : Nat) :
    (countClamp { p with swap := swap, mirrorX := mirrorX, mirrorY := mirrorY } x y).clamps =
      (p.countClamp x y).clamps := by
  rw [clamps_countClamp, clamps_countClamp]

end Panel

/-- Settles O13: each coordinate is the reflection of the calibrated value that the exchange gives its axis. -/
theorem orientationOfAPoint : Obligations.OrientationOfAPoint := by
  intro p x y hx hy
  have hbound := p.orient_le hx hy
  have hcanvas := p.canvas_eq_orient
  have hclamps := p.clamps_countClamp_orientation
  cases hs : p.swap with
  | false =>
    rw [Panel.orient_of_not_swap hs] at hbound ⊢
    simp +contextual [hbound, hcanvas, hclamps]
  | true =>
    rw [Panel.orient_of_swap hs] at hbound ⊢
    simp +contextual [hbound, hcanvas, hclamps]

end Sys2Proof.Machine
end

section
/-! Proofs about the frames of the kiosk link (chapters 8 and 9): the CRC of R141, where a frame carries it, and the
check that compares it. -/

namespace Sys2Proof.Machine

/-! ### The CRC register (R141) -/

/-- R141: top bit and data bit agree, so the register is only shifted. -/
theorem crcBit_of_top_eq {reg : BitVec 16} {bit : Bool} (h : reg.getLsbD 15 = bit) : crcBit reg bit = reg <<< 1 := by
  simp only [crcBit, h, bne_self_eq_false, Bool.false_eq_true, if_false]

/-- R141: top bit and data bit differ, so the shifted register is combined with the polynomial. -/
theorem crcBit_of_top_ne {reg : BitVec 16} {bit : Bool} (h : reg.getLsbD 15 ≠ bit) :
    crcBit reg bit = (reg <<< 1) ^^^ 0x1021#16 := by
  rw [crcBit, if_pos (bne_iff_ne.mpr h)]

theorem crcBit_eq_ite (reg : BitVec 16) (bit : Bool) :
    crcBit reg bit = if reg.getLsbD 15 = bit then reg <<< 1 else (reg <<< 1) ^^^ 0x1021#16 := by
  split
  · next h => exact crcBit_of_top_eq h
  · next h => exact crcBit_of_top_ne h

/-- R141: a byte is taken most significant bit first. -/
theorem crcByte_eq_crcBits (reg : BitVec 16) (b : Byte) :
    crcByte reg b = crcBit (crcBit (crcBit (crcBit (crcBit (crcBit (crcBit (crcBit reg (b.getLsbD 7)) (b.getLsbD 6))
      (b.getLsbD 5)) (b.getLsbD 4)) (b.getLsbD 3)) (b.getLsbD 2)) (b.getLsbD 1)) (b.getLsbD 0) := rfl

theorem crc16_nil : crc16 [] = 0xFFFF#16 := rfl

/-- R141: the bytes are taken in the order sent. -/
theorem crc16_append_singleton (bs : List Byte) (b : Byte) : crc16 (bs ++ [b]) = crcByte (crc16 bs) b :=
  List.foldl_concat ..

/-- R141: the register over the nine bytes of the rule's example. -/
theorem crc16_check_value :
    crc16 [0x31#8, 0x32#8, 0x33#8, 0x34#8, 0x35#8, 0x36#8, 0x37#8, 0x38#8, 0x39#8] = 0x29B1#16 := by decide +kernel

/-! ### The frame and its check (R140, R141) -/

/-- R141, R150: a frame is its bytes from CHANNEL to the last PAYLOAD byte, then their CRC, high byte first. -/
theorem frameBytes_eq_append_crc (ch kind tag : Byte) (payload : List Byte) :
    frameBytes ch kind tag payload =
      frameBody ch kind tag payload ++
        [byte ((crc16 (frameBody ch kind tag payload)).toNat / 256), byte (crc16 (frameBody ch kind tag payload)).toNat] :=
  rfl

/-- R140: a frame that passes the framing, overlength and length checks fails the CRC check or none. The length check's
own bound on LENGTH follows from the count's. -/
theorem RxFrame.firstFailure_of_length_ok {f : RxFrame} (hframing : f.framing = false) (hmin : 7 ≤ f.count)
    (hmax : f.count ≤ 263) (hlen : f.count = word16 f.chars 3 + 7) :
    RxFrame.firstFailure f =
      if (crc16 (f.chars.take (f.count - 2))).toNat = word16 f.chars (f.count - 2) then none else some .crcError := by
  have hover : ¬ 263 < f.count := by omega
  have hlength : ¬ (f.count < 7 ∨ Config.maxPayload < word16 f.chars 3 ∨ f.count ≠ word16 f.chars 3 + 7) := by
    simp only [Config.maxPayload]
    omega
  simp only [RxFrame.firstFailure, hframing, hover, hlength, Bool.false_eq_true, if_false, ne_eq, ite_not]

/-- The CRC of a taken frame stands in its last two bytes, high byte first. -/
theorem word16_last_two_eq {f : RxFrame} (hmin : 7 ≤ f.count) :
    word16 f.chars (f.count - 2) = byteAt f.chars (f.count - 2) * 256 + byteAt f.chars (f.count - 1) := by
  rw [word16, show f.count - 2 + 1 = f.count - 1 by omega]

/-! ### The frames of the egress (R150) -/

theorem TouchEntry.exists_frame_eq (e : TouchEntry) : ∃ ch kind tag payload, e.frame = frameBytes ch kind tag payload :=
  ⟨_, _, _, _, rfl⟩

theorem State.exists_controlFrame_eq (s : State) (e : ControlEntry) :
    ∃ ch kind tag payload, s.controlFrame e = frameBytes ch kind tag payload := by
  cases e with
  | reply channel tag kind status fields after => exact ⟨_, _, _, _, rfl⟩
  | credit channel slot limit => exact ⟨_, _, _, _, rfl⟩
  | jobEnd channel slot reason count lineErrors => exact ⟨_, _, _, _, rfl⟩
  | notice => exact ⟨_, _, _, _, rfl⟩

theorem State.exists_scanFrame_eq (s : State) (slot : SlotId) (j : Job) :
    ∃ ch kind tag payload, s.scanFrame slot j = frameBytes ch kind tag payload :=
  ⟨_, _, _, _, rfl⟩

/-- Settles O15: the register bit by bit and byte by byte, the frame that carries it, the receiver's comparison, and the
frames that the egress builds. -/
theorem frameCrc : Obligations.FrameCrc := by
  refine ⟨crcBit_eq_ite, crcByte_eq_crcBits, crc16_nil, crc16_append_singleton, frameBytes_eq_append_crc,
    crc16_check_value, ?_, TouchEntry.exists_frame_eq, State.exists_controlFrame_eq, State.exists_scanFrame_eq⟩
  intro f _ hframing hmin hmax hlen
  rw [RxFrame.firstFailure_of_length_ok hframing hmin hmax hlen, word16_last_two_eq hmin]

end Sys2Proof.Machine
end

section
/-! Proofs about the machine as a whole: the step, what every step keeps, and the state after power-on reset. -/

namespace Sys2Proof.Machine

/-! ### The step -/

theorem step_of_pending_cons {s : State} {c : Instr} {rest : List Instr} (h : s.pending = c :: rest) :
    step s = exec c { s with pending := rest } := by
  unfold step
  rw [h]

theorem step_of_pending_nil {s : State} (h : s.pending = []) : step s = .next s := by
  unfold step
  rw [h]

/-- Settles O1: the queue's front decides what a step does. -/
theorem stepRunsTheFrontCommand : Obligations.StepRunsTheFrontCommand :=
  ⟨fun _ _ => step_of_pending_cons rfl, fun _ _ _ h => step_of_pending_cons h, fun _ h => step_of_pending_nil h⟩

/-- A row of steps leaves the commands that wait. -/
theorem wides_pending {l l' : List BlockId} {s t : State} (w : Wides l s l' t) : t.pending = s.pending :=
  w.keeps (P := fun _ u => u.pending = s.pending) (fun _ _ _ _ m h => (wide_pending m).trans h) rfl

/-- Settles O2: `exec_wides` gives the next state, and no step of its row touches the queue. -/
theorem everyCommandCompletes : Obligations.EveryCommandCompletes := by
  intro c s
  obtain ⟨t, ht, hw⟩ := exec_wides c s
  exact ⟨t, ht, wides_pending hw⟩

/-! ### What every step keeps

`P l s` speaks of a state with the blocks `l` in hand; between two steps none is. -/

/-- A law that every small step keeps, and that the queue of commands does not matter to, is kept by `step`. -/
theorem step_keeps {P : List BlockId → State → Prop}
    (keeps : ∀ l s l' s', Wide (l, s) (l', s') → P l s → P l' s')
    (dequeue : ∀ (s : State) (q : List Instr), P [] s → P [] { s with pending := q })
    {s t : State} (hs : P [] s) (h : step s = .next t) : P [] t := by
  cases hp : s.pending with
  | nil =>
    rw [step_of_pending_nil hp] at h
    cases h
    exact hs
  | cons c rest =>
    rw [step_of_pending_cons hp] at h
    obtain ⟨u, hu, hw⟩ := exec_wides c { s with pending := rest }
    rw [hu] at h
    cases h
    exact hw.keeps keeps (dequeue s rest hs)

/-- Settles O5. -/
theorem memoryStaysCanonical : Obligations.MemoryStaysCanonical := fun _ _ hs h =>
  step_keeps (P := fun _ u => MemoryInv u) (fun _ _ _ _ => wide_memory) (fun _ _ => id) hs h

/-- Settles O6: along a step the blocks in hand are counted, and before and after it none is in hand. -/
theorem blocksStayAccounted : Obligations.BlocksStayAccounted := fun s t hs h =>
  (blocksHeld_nil t).mp
    (step_keeps (P := BlocksHeld) (fun _ _ _ _ => wide_blocks) (fun _ _ => id) ((blocksHeld_nil s).mpr hs) h)

/-- Settles O7. -/
theorem countsStayInOrder : Obligations.CountsStayInOrder := fun _ _ hs h =>
  step_keeps (P := fun _ u => CountsInv u) (fun _ _ _ _ => wide_counts) (fun _ _ => id) hs h

/-- Settles O8. -/
theorem queuesMatchTheJobs : Obligations.QueuesMatchTheJobs := fun _ _ hs h =>
  step_keeps (P := fun _ u => QueuesInv u) (fun _ _ _ _ => wide_queues) (fun _ _ => id) hs h

/-- Settles O9. -/
theorem portsStayInOrder : Obligations.PortsStayInOrder := fun _ _ hs h =>
  step_keeps (P := fun _ u => PortsInv u) (fun _ _ _ _ => wide_ports) (fun _ _ => id) hs h

/-- Settles O10. -/
theorem tablesStayInRange : Obligations.TablesStayInRange := fun _ _ hs h =>
  step_keeps (P := fun _ u => TablesInv u) (fun _ _ _ _ => wide_tables) (fun _ _ => id) hs h

/-! ### The state after power-on reset, table by table -/

theorem reset_device (d : DeviceId) : State.reset.device d = DevicePort.reset := by
  simp [State.device, State.reset]

theorem reset_route (e : RouteId) : State.reset.route e = RouteEntry.reset := by
  simp [State.route, State.reset]

theorem reset_panel (p : PanelId) : State.reset.panel p = Panel.reset := by
  simp [State.panel, State.reset]

theorem reset_zone (z : ZoneId) : State.reset.zone z = Zone.reset := by
  simp [State.zone, State.reset]

theorem reset_contact (c : ContactIx) : State.reset.contact c = .free := by
  simp [State.contact, State.reset]

theorem reset_free : State.reset.free = allBlocks := by simp only [State.reset]

/-- Settles O3: each table of the reset state holds one value throughout. -/
theorem resetValues : Obligations.ResetValues := by
  refine ⟨fun k => ?_, fun d => ?_, reset_job, reset_route, reset_panel, reset_zone, reset_contact,
    reset_free, rfl, rfl, rfl, rfl, rfl, rfl, rfl⟩
  · rw [reset_kiosk]
    simp [KioskPort.reset]
  · rw [reset_device]
    simp [DevicePort.reset, DeviceRecord.reset, ScanEngine.idle, Poller.idle]

/-- Settles O4: at reset every block is free, every record FREE and every queue empty. -/
theorem resetMeetsTheInvariants : Obligations.ResetMeetsTheInvariants := by
  refine ⟨rfl, ?blocks, ?counts, ?queues, (ports_iff _).mpr ⟨?places, ?entries⟩, reset_tables⟩
  case blocks =>
    rw [← blocksHeld_nil, BlocksHeld, chains_of_free reset_job, List.append_nil, List.nil_append, reset_free]
  case counts =>
    intro i j h
    rw [reset_job] at h
    cases h
  case queues => exact queues_of_empty (fun d => by rw [reset_device]; rfl) reset_job
  case places => exact fun k => by rw [reset_kiosk]; exact KioskPort.reset_ok
  case entries => exact entries_of_empty fun k => by rw [reset_kiosk]; rfl

end Sys2Proof.Machine
end

section
/-! Proofs about what the part computes from numbers: the calibration of an axis (section 7.1) and the coordinates of a
zone (section 7.4). -/

namespace Sys2Proof.Machine

/-! ### Calibration (R106) -/

/-- R106: over the full ranges of raw value, offset and gain the product fits in 27 bits. -/
theorem cal_product_bounds {diff gain : Int} (hlow : -2047 ≤ diff) (hhigh : diff ≤ 6143) (hg : 2048 ≤ gain)
    (hg' : gain ≤ 8191) : -16766977 ≤ diff * gain ∧ diff * gain ≤ 50317313 := by
  constructor <;> nlinarith

/-- R106, step 2: the quotient is rounded toward minus infinity. -/
theorem calQuotient_bounds (raw : Nat) (offset : Int) (gain : Nat) :
    calQuotient raw offset gain * 4096 ≤ ((raw : Int) - offset) * gain + 2048 ∧
      ((raw : Int) - offset) * gain + 2048 < (calQuotient raw offset gain + 1) * 4096 := by
  unfold calQuotient
  omega

theorem calibrate_of_neg {raw gain : Nat} {offset : Int} (h : calQuotient raw offset gain < 0) :
    calibrate raw offset gain = 0 ∧ calClamped raw offset gain = true := by
  constructor
  · unfold calibrate
    omega
  · simp [calClamped, h]

theorem calibrate_of_gt {raw gain : Nat} {offset : Int} (h : 4095 < calQuotient raw offset gain) :
    calibrate raw offset gain = 4095 ∧ calClamped raw offset gain = true := by
  constructor
  · unfold calibrate
    omega
  · simp [calClamped, h]

theorem calibrate_of_mem {raw gain : Nat} {offset : Int} (hlow : 0 ≤ calQuotient raw offset gain)
    (hhigh : calQuotient raw offset gain ≤ 4095) :
    (calibrate raw offset gain : Int) = calQuotient raw offset gain ∧ calClamped raw offset gain = false := by
  constructor
  · unfold calibrate
    omega
  · simp [calClamped, hlow, hhigh]

/-- Settles O12: the quotient of R106 is the one that lies between the two multiples of 4096, and it is clamped. -/
theorem calibrationOfAnAxis : Obligations.CalibrationOfAnAxis := by
  refine ⟨fun raw offset gain hraw ho ho' hg hg' => ?_, Panel.canvas_eq_orient, by decide⟩
  have hlow : -2047 ≤ (raw : Int) - offset := by omega
  have hhigh : (raw : Int) - offset ≤ 6143 := by omega
  obtain ⟨hmin, hmax⟩ := cal_product_bounds (gain := gain) hlow hhigh (by omega) (by omega)
  exact ⟨hlow, hhigh, hmin, hmax, calQuotient raw offset gain, calQuotient_bounds raw offset gain, calibrate_of_neg,
    calibrate_of_gt, calibrate_of_mem⟩

/-! ### Zone coordinates (R114) -/

/-- R114: the canvas coordinate brought into the captured bounds. -/
def clampInto (c lo hi : Nat) : Nat := if c < lo then lo else if hi < c then hi else c

theorem clampInto_eq {c lo hi : Nat} (h : lo ≤ hi) : clampInto c lo hi = max lo (min c hi) := by
  unfold clampInto
  split
  · omega
  · split <;> omega

theorem clampInto_sub_le {c lo hi : Nat} (h : lo ≤ hi) : clampInto c lo hi - lo ≤ hi - lo := by
  rw [clampInto_eq h]
  omega

theorem mapAxis_of_eq (c lo size : Nat) : mapAxis c lo lo size = 0 := by simp [mapAxis]

theorem mapAxis_of_lt {c lo hi size : Nat} (h : lo < hi) :
    mapAxis c lo hi size = (2 * (clampInto c lo hi - lo) * (size - 1) + (hi - lo)) / (2 * (hi - lo)) := by
  rw [clampInto_eq (Nat.le_of_lt h)]
  simp only [mapAxis, if_neg (show hi - lo ≠ 0 by omega)]

/-- The rounded quotient of R114 at either end of the span: half a step is rounded down to nothing. -/
theorem round_div_span {n span : Nat} (h : 0 < span) : (2 * span * n + span) / (2 * span) = n := by
  rw [Nat.mul_add_div (by omega), Nat.div_eq_of_lt (by omega), Nat.add_zero]

/-- R114: a mapped coordinate stays inside the kiosk's size. -/
theorem mapAxis_le {c lo hi size : Nat} (h : lo ≤ hi) : mapAxis c lo hi size ≤ size - 1 := by
  obtain rfl | hlt := Nat.eq_or_lt_of_le h
  · rw [mapAxis_of_eq]
    exact Nat.zero_le _
  · rw [mapAxis_of_lt hlt]
    calc (2 * (clampInto c lo hi - lo) * (size - 1) + (hi - lo)) / (2 * (hi - lo))
        ≤ (2 * (hi - lo) * (size - 1) + (hi - lo)) / (2 * (hi - lo)) := by
          have hc := clampInto_sub_le (c := c) h
          gcongr
      _ = size - 1 := round_div_span (by omega)

theorem mapAxis_of_le {c lo hi size : Nat} (h : lo ≤ hi) (hc : c ≤ lo) : mapAxis c lo hi size = 0 := by
  obtain rfl | hlt := Nat.eq_or_lt_of_le h
  · exact mapAxis_of_eq c lo size
  · rw [mapAxis_of_lt hlt, clampInto_eq h, show max lo (min c hi) - lo = 0 by omega, Nat.mul_zero, Nat.zero_mul,
      Nat.zero_add, Nat.div_eq_of_lt (by omega)]

theorem mapAxis_of_ge {c lo hi size : Nat} (h : lo < hi) (hc : hi ≤ c) : mapAxis c lo hi size = size - 1 := by
  rw [mapAxis_of_lt h, clampInto_eq (Nat.le_of_lt h), show max lo (min c hi) - lo = hi - lo by omega,
    round_div_span (by omega)]

/-- R114: the largest dividend, at a full canvas and the largest size. -/
theorem mapAxis_dividend_le {c lo hi size : Nat} (h : lo ≤ hi) (hhi : hi ≤ 4095) (hsize : size ≤ 32767) :
    2 * (clampInto c lo hi - lo) * (size - 1) + (hi - lo) ≤ 268357635 := by
  have hc : clampInto c lo hi - lo ≤ 4095 := (clampInto_sub_le h).trans (by omega)
  calc 2 * (clampInto c lo hi - lo) * (size - 1) + (hi - lo)
      ≤ 2 * 4095 * 32766 + 4095 := by gcongr <;> omega
    _ = 268357635 := by norm_num

/-- Settles O14: `clampInto` is the statement's clamped coordinate, written out there. -/
theorem zoneCoordinates : Obligations.ZoneCoordinates := by
  refine ⟨fun _ _ => rfl, fun c lo hi size h hhi hsize hsize' => ?_, by decide⟩
  exact ⟨fun e => e ▸ mapAxis_of_eq c lo size, mapAxis_of_lt, mapAxis_le h, mapAxis_of_le h, mapAxis_of_ge,
    mapAxis_dividend_le h hhi hsize'⟩

end Sys2Proof.Machine
end

section
/-! Proofs about the operand forms (section 9.7): what a byte, a big-endian number, a bit and a code read back as, and
the table records built from them. -/

namespace Sys2Proof.Machine

/-! ### Numbers (R150) -/

@[simp] theorem byte_toNat (n : Nat) : (byte n).toNat = n % 256 := BitVec.toNat_ofNat n 8

@[simp] theorem byte_toNat_self (b : Byte) : byte b.toNat = b := BitVec.ofNat_toNat 8 b

/-- A byte names its value. -/
theorem eq_byte_of_toNat {b : Byte} {n : Nat} (h : b.toNat = n) : b = byte n := by rw [← h, byte_toNat_self]

theorem byteAt_cons_zero (b : Byte) (bs : List Byte) : byteAt (b :: bs) 0 = b.toNat := rfl

theorem byteAt_cons_succ (b : Byte) (bs : List Byte) (i : Nat) : byteAt (b :: bs) (i + 1) = byteAt bs i := rfl

/-- A 16-bit number sent high byte first reads back. -/
theorem word16_be16 {n : Nat} (h : n < 65536) : (byte (n / 256)).toNat * 256 + (byte n).toNat = n := by
  rw [byte_toNat, byte_toNat]
  omega

theorem bitValue_eq (b : Bool) (i : Nat) : bitValue b i = b.toNat * 2 ^ i := by
  cases b <;> simp [bitValue]

/-- A bit reads back from a number whose binary digit at its place is the bit. -/
theorem bitAt_eq {n i : Nat} {b : Bool} (h : n / 2 ^ i % 2 = b.toNat) : bitAt n i = b := by
  rw [bitAt, Nat.testBit_eq_decide_div_mod_eq, h]
  cases b <;> rfl

/-- A signed 16-bit number reads back. -/
theorem toInt_ofNat_toNat_ofInt {v : Int} (h : -32768 ≤ v) (h' : v < 32768) :
    (BitVec.ofNat 16 (BitVec.ofInt 16 v).toNat).toInt = v := by
  rw [BitVec.ofNat_toNat, BitVec.setWidth_eq, BitVec.toInt_ofInt]
  exact Int.bmod_eq_of_le (by omega) (by omega)

@[simp] theorem toFin_val {n : Nat} (i : Fin n) : toFin n i.val = some i := by simp [toFin]

theorem toFin_eq_some {n i : Nat} (h : i < n) : toFin n i = some ⟨i, h⟩ := by simp [toFin, h]

theorem toFin_eq_none {n i : Nat} (h : n ≤ i) : toFin n i = none := by simp [toFin, h]

theorem toFin_eq_none_iff {n i : Nat} : toFin n i = none ↔ n ≤ i := by simp [toFin]

theorem toFin_eq_some_iff {n i : Nat} {x : Fin n} : toFin n i = some x ↔ i = x.val := by
  unfold toFin
  split
  · simp [Fin.ext_iff]
  · next h =>
    constructor
    · exact fun e => by cases e
    · exact fun e => absurd x.isLt (e ▸ h)

/-! ### Codes (R150) -/

theorem actionOfCode_code (a : Action) : actionOfCode a.code = some a := by cases a <;> rfl

theorem Action.code_lt (a : Action) : a.code < 2 := by cases a <;> decide

theorem classOfCode_code (c : DeviceClass) : classOfCode c.code = some c := by cases c <;> rfl

theorem DeviceClass.code_lt (c : DeviceClass) : c.code < 4 := by cases c <;> decide

theorem formatOfCode_code (f : Format) : formatOfCode f.code = some f := by cases f <;> rfl

theorem Format.code_lt (f : Format) : f.code < 4 := by cases f <;> decide

theorem holdModeOfCode_code (h : HoldMode) : holdModeOfCode h.code = some h := by cases h <;> rfl

theorem HoldMode.code_lt (h : HoldMode) : h.code < 3 := by cases h <;> decide

/-! ### Records sent and read back -/

theorem decodeRoute_encodeRoute (e : RouteEntry) : decodeRoute (encodeRoute e) = some { e with hits := 0 } := by
  have henabled : bitAt (byteAt (encodeRoute e) 0) 0 = e.enabled := by
    refine bitAt_eq ?_
    show (byte (bitValue e.enabled 0)).toNat / 2 ^ 0 % 2 = _
    have := e.enabled.toNat_lt
    rw [byte_toNat, bitValue_eq]
    omega
  have hports : BitVec.ofNat 16 (word16 (encodeRoute e) 3) = e.ports := by
    show BitVec.ofNat 16 ((byte _).toNat * 256 + (byte _).toNat) = _
    rw [word16_be16 e.ports.isLt, BitVec.ofNat_toNat, BitVec.setWidth_eq]
  have hcode : byteAt (encodeRoute e) 5 = e.action.code * 16 + e.device.val := by
    show (byte (e.action.code * 16 + e.device.val)).toNat = _
    have := e.action.code_lt
    rw [byte_toNat]
    omega
  have haction : (e.action.code * 16 + e.device.val) / 16 = e.action.code := by omega
  have hdevice : (e.action.code * 16 + e.device.val) % 16 = e.device.val := by omega
  simp only [decodeRoute, hcode, haction, hdevice, actionOfCode_code, toFin_val, henabled, hports]
  show some { e with matchValue := byte e.matchValue.toNat, mask := byte e.mask.toNat, hits := 0 } = _
  rw [byte_toNat_self, byte_toNat_self]

/-- R105: an offset inside its range is sent and read back as it is. -/
theorem clampOffset_beSigned16 {v : Int} (h : -2048 ≤ v) (h' : v ≤ 2047) :
    clampOffset (BitVec.ofNat 16
      ((byte ((BitVec.ofInt 16 v).toNat / 256)).toNat * 256 + (byte (BitVec.ofInt 16 v).toNat).toNat)).toInt = v := by
  rw [word16_be16 (BitVec.isLt _), toInt_ofNat_toNat_ofInt (by omega) (by omega), clampOffset]
  omega

/-- R105: a gain inside its range is sent and read back as it is. -/
theorem clampGain_be16 {v : Nat} (h : 2048 ≤ v) (h' : v ≤ 8191) :
    clampGain ((byte (v / 256)).toNat * 256 + (byte v).toNat) = v := by
  rw [word16_be16 (by omega), clampGain]
  omega

/-- R150: the flags byte of a panel record. -/
def Panel.flagsByte (p : Panel) : Nat :=
  bitValue p.enabled 0 + bitValue p.swap 1 + bitValue p.mirrorX 2 + bitValue p.mirrorY 3 + bitValue p.moveSuppress 4

theorem Panel.flagsByte_eq (p : Panel) : p.flagsByte = p.enabled.toNat + 2 * p.swap.toNat + 4 * p.mirrorX.toNat +
    8 * p.mirrorY.toNat + 16 * p.moveSuppress.toNat := by
  simp only [Panel.flagsByte, bitValue_eq]
  omega

theorem Panel.bitAt_flagsByte (p : Panel) :
    bitAt p.flagsByte 0 = p.enabled ∧ bitAt p.flagsByte 1 = p.swap ∧ bitAt p.flagsByte 2 = p.mirrorX ∧
      bitAt p.flagsByte 3 = p.mirrorY ∧ bitAt p.flagsByte 4 = p.moveSuppress := by
  have h0 := p.enabled.toNat_lt
  have h1 := p.swap.toNat_lt
  have h2 := p.mirrorX.toNat_lt
  have h3 := p.mirrorY.toNat_lt
  have h4 := p.moveSuppress.toNat_lt
  rw [p.flagsByte_eq]
  refine ⟨bitAt_eq ?_, bitAt_eq ?_, bitAt_eq ?_, bitAt_eq ?_, bitAt_eq ?_⟩ <;> omega

theorem Panel.flagsByte_lt (p : Panel) : p.flagsByte < 256 := by
  have h0 := p.enabled.toNat_lt
  have h1 := p.swap.toNat_lt
  have h2 := p.mirrorX.toNat_lt
  have h3 := p.mirrorY.toNat_lt
  have h4 := p.moveSuppress.toNat_lt
  rw [p.flagsByte_eq]
  omega

theorem decodePanel_encodePanel (old : Panel) {p : Panel} (hp : p.ok) :
    decodePanel old (encodePanel p) =
      some { p with presence := .unknown, missRun := 0, clamps := 0, causes := old.causes } := by
  obtain ⟨hzero, hones, hox, hox', hoy, hoy', hgx, hgx', hgy, hgy', -, -⟩ := hp
  have hflags : byteAt (encodePanel p) 0 = p.flagsByte := by
    show (byte p.flagsByte).toNat = _
    rw [byte_toNat, Nat.mod_eq_of_lt p.flagsByte_lt]
  have hdevice : byteAt (encodePanel p) 1 = p.device.val := by
    show (byte p.device.val).toNat = _
    rw [byte_toNat]
    omega
  have haddress : byteAt (encodePanel p) 2 = p.address.toNat := rfl
  have hvalid : ¬ (p.address.toNat = 0x00 ∨ p.address.toNat = 0xFF) := by
    rintro (h | h)
    · exact hzero (BitVec.eq_of_toNat_eq h)
    · exact hones (BitVec.eq_of_toNat_eq h)
  have hoffsetX : clampOffset (signed16 (encodePanel p) 4) = p.offsetX := clampOffset_beSigned16 hox hox'
  have hoffsetY : clampOffset (signed16 (encodePanel p) 6) = p.offsetY := clampOffset_beSigned16 hoy hoy'
  have hgainX : clampGain (word16 (encodePanel p) 8) = p.gainX := clampGain_be16 hgx hgx'
  have hgainY : clampGain (word16 (encodePanel p) 10) = p.gainY := clampGain_be16 hgy hgy'
  obtain ⟨h0, h1, h2, h3, h4⟩ := p.bitAt_flagsByte
  simp only [decodePanel, hflags, hdevice, haddress, toFin_val, if_neg hvalid, hoffsetX, hoffsetY, hgainX, hgainY,
    h0, h1, h2, h3, h4, byte_toNat_self]

/-- R110: a coordinate inside the canvas is sent and read back as it is. -/
theorem clampCoord_be16 {v : Nat} (h : v ≤ 4095) : clampCoord ((byte (v / 256)).toNat * 256 + (byte v).toNat) = v := by
  rw [word16_be16 (by omega), clampCoord]
  omega

/-- R110: a size inside its range is sent and read back as it is. -/
theorem clampSize_be16 {v : Nat} (h : 1 ≤ v) (h' : v ≤ 32767) :
    clampSize ((byte (v / 256)).toNat * 256 + (byte v).toNat) = v := by
  rw [word16_be16 (by omega), clampSize]
  omega

theorem decodeZone_encodeZone {z : Zone} (hz : z.ok) : decodeZone (encodeZone z) = some z := by
  obtain ⟨hx, hx1, hy, hy1, hw, hw', hh, hh'⟩ := hz
  have henabled : bitAt (byteAt (encodeZone z) 0) 0 = z.enabled := by
    refine bitAt_eq ?_
    show (byte (bitValue z.enabled 0)).toNat / 2 ^ 0 % 2 = _
    have := z.enabled.toNat_lt
    rw [byte_toNat, bitValue_eq]
    omega
  have hpanel : byteAt (encodeZone z) 1 = z.panel.val := by
    show (byte z.panel.val).toNat = _
    rw [byte_toNat]
    omega
  have hkiosk : byteAt (encodeZone z) 2 = z.kiosk.val := by
    show (byte z.kiosk.val).toNat = _
    rw [byte_toNat]
    omega
  have hx0 : clampCoord (word16 (encodeZone z) 4) = z.x0 := clampCoord_be16 (hx.trans hx1)
  have hy0 : clampCoord (word16 (encodeZone z) 6) = z.y0 := clampCoord_be16 (hy.trans hy1)
  have hx1 : clampCoord (word16 (encodeZone z) 8) = z.x1 := clampCoord_be16 hx1
  have hy1 : clampCoord (word16 (encodeZone z) 10) = z.y1 := clampCoord_be16 hy1
  have hwidth : clampSize (word16 (encodeZone z) 12) = z.width := clampSize_be16 hw hw'
  have hheight : clampSize (word16 (encodeZone z) 14) = z.height := clampSize_be16 hh hh'
  simp only [decodeZone, hpanel, hkiosk, toFin_val, hx0, hy0, hx1, hy1, hx, hy, and_self, if_true, henabled, hwidth,
    hheight]

/-- R150: the flags byte of a device record. -/
def DeviceRecord.flagsByte (d : DeviceRecord) : Nat :=
  bitValue d.rdyLow 0 + bitValue d.atnLow 1 + bitValue d.holdLow 2 + bitValue d.wakeOnActivity 3 +
    bitValue d.resetBreak 4 + d.atnBlanking.val * 32

theorem DeviceRecord.flagsByte_eq (d : DeviceRecord) : d.flagsByte = d.rdyLow.toNat + 2 * d.atnLow.toNat +
    4 * d.holdLow.toNat + 8 * d.wakeOnActivity.toNat + 16 * d.resetBreak.toNat + 32 * d.atnBlanking.val := by
  simp only [DeviceRecord.flagsByte, bitValue_eq]
  omega

theorem DeviceRecord.flagsByte_fields (d : DeviceRecord) :
    bitAt d.flagsByte 0 = d.rdyLow ∧ bitAt d.flagsByte 1 = d.atnLow ∧ bitAt d.flagsByte 2 = d.holdLow ∧
      bitAt d.flagsByte 3 = d.wakeOnActivity ∧ bitAt d.flagsByte 4 = d.resetBreak ∧
      d.flagsByte / 32 % 4 = d.atnBlanking.val ∧ d.flagsByte < 256 := by
  have h0 := d.rdyLow.toNat_lt
  have h1 := d.atnLow.toNat_lt
  have h2 := d.holdLow.toNat_lt
  have h3 := d.wakeOnActivity.toNat_lt
  have h4 := d.resetBreak.toNat_lt
  have h5 := d.atnBlanking.isLt
  rw [d.flagsByte_eq]
  refine ⟨bitAt_eq ?_, bitAt_eq ?_, bitAt_eq ?_, bitAt_eq ?_, bitAt_eq ?_, ?_, ?_⟩ <;> omega

theorem DeviceRecord.rate_fields {d : DeviceRecord} (h : d.divider ≤ 4095) :
    bitAt (bitValue d.prescale8 15 + d.divider) 15 = d.prescale8 ∧
      (bitValue d.prescale8 15 + d.divider) % 4096 = d.divider ∧ bitValue d.prescale8 15 + d.divider < 65536 := by
  have hb := d.prescale8.toNat_lt
  rw [bitValue_eq]
  refine ⟨bitAt_eq ?_, ?_, ?_⟩ <;> omega

/-- A one-byte field of a record. -/
theorem byte_toNat_of_le {n : Nat} (h : n ≤ 255) : (byte n).toNat = n := by
  rw [byte_toNat]
  omega

/-- R162: a field that is raised to its minimum when written below it, sent and read back. -/
theorem max_byte {low n : Nat} (h : low ≤ n) (h' : n ≤ 255) : max low (byte n).toNat = n := by
  rw [byte_toNat_of_le h']
  omega

theorem decodeDevice_encodeDevice {d : DeviceRecord} (hd : d.ok) : decodeDevice (encodeDevice d) = some d := by
  obtain ⟨hmultidrop, hdivider, hstart, hunderrun, hfirst, hgap, hgap', hfault, hset, hclear, hpoll, hreply⟩ := hd
  obtain ⟨h0, h1, h2, h3, h4, h5, hflags⟩ := d.flagsByte_fields
  obtain ⟨hprescale, hdiv, hrate⟩ := DeviceRecord.rate_fields hdivider
  have hcls : byteAt (encodeDevice d) 0 = d.cls.code := byte_toNat_of_le (by have := d.cls.code_lt; omega)
  have hformat : byteAt (encodeDevice d) 1 = d.format.code := byte_toNat_of_le (by have := d.format.code_lt; omega)
  have hhold : byteAt (encodeDevice d) 5 = d.holdMode.code := byte_toNat_of_le (by have := d.holdMode.code_lt; omega)
  have hword : word16 (encodeDevice d) 2 = bitValue d.prescale8 15 + d.divider := word16_be16 hrate
  have hbyte : byteAt (encodeDevice d) 4 = d.flagsByte := byte_toNat_of_le (Nat.le_of_lt_succ hflags)
  have hserved : ¬ (d.format = .multidrop ∧ d.cls ≠ .touch) := fun h => h.2 (hmultidrop h.1)
  have e6 : byteAt (encodeDevice d) 6 = d.startThreshold := byte_toNat_of_le hstart
  have e7 : max 1 (byteAt (encodeDevice d) 7) = d.underrunTimeout := max_byte hunderrun.1 hunderrun.2
  have e8 : max 1 (byteAt (encodeDevice d) 8) = d.firstByteTimeout := max_byte hfirst.1 hfirst.2
  have e9 : max 2 (byteAt (encodeDevice d) 9) = d.endGap := max_byte hgap hgap'
  have e10 : max 1 (byteAt (encodeDevice d) 10) = d.faultLimit := max_byte hfault.1 hfault.2
  have e11 : max 1 (byteAt (encodeDevice d) 11) = d.holdSet := max_byte hset.1 hset.2
  have e12 : max 1 (byteAt (encodeDevice d) 12) = d.holdClear := max_byte hclear.1 hclear.2
  have e13 : max 1 (byteAt (encodeDevice d) 13) = d.pollInterval := max_byte hpoll.1 hpoll.2
  have e14 : max 1 (byteAt (encodeDevice d) 14) = d.replyTimeout := max_byte hreply.1 hreply.2
  simp only [decodeDevice, hcls, hformat, hhold, classOfCode_code, formatOfCode_code, holdModeOfCode_code,
    if_neg hserved, hword, hprescale, hdiv, hbyte, h0, h1, h2, h3, h4, h5, e6, e7, e8, e9, e10, e11, e12, e13, e14]

theorem decodeKiosk_encodeKiosk {p : KioskPort} (h : p.quota ≤ 2048) :
    decodeKiosk (encodeKiosk p) = some (p.recordRate, p.quota) := by
  have hrate : byteAt (encodeKiosk p) 0 = p.recordRate.val := byte_toNat_of_le (by omega)
  have hquota : word16 (encodeKiosk p) 2 = p.quota := word16_be16 (by omega)
  simp only [decodeKiosk, hrate, toFin_val, hquota, Nat.min_eq_left h]

theorem decodeSpool_encodeSpool {r : SpoolRecord} (h : r.ok) : decodeSpool (encodeSpool r) = r := by
  obtain ⟨hset, hclear⟩ := h
  have eset : byteAt (encodeSpool r) 0 = r.tightSet := byte_toNat_of_le (by omega)
  have eclear : byteAt (encodeSpool r) 1 = r.tightClear := byte_toNat_of_le (by omega)
  have hentry := r.onEntry.toNat_lt
  have hexit := r.onExit.toNat_lt
  have eflags : byteAt (encodeSpool r) 2 = bitValue r.onEntry 0 + bitValue r.onExit 1 :=
    byte_toNat_of_le (by rw [bitValue_eq, bitValue_eq]; omega)
  have eentry : bitAt (bitValue r.onEntry 0 + bitValue r.onExit 1) 0 = r.onEntry :=
    bitAt_eq (by rw [bitValue_eq, bitValue_eq]; omega)
  have eexit : bitAt (bitValue r.onEntry 0 + bitValue r.onExit 1) 1 = r.onExit :=
    bitAt_eq (by rw [bitValue_eq, bitValue_eq]; omega)
  simp only [decodeSpool, eset, eclear, eflags, eentry, eexit, Nat.min_eq_left hset, Nat.min_eq_left hclear]

/-- Settles O16: each record's round trip; its length is that of the bytes written out. -/
theorem recordsRoundTrip : Obligations.RecordsRoundTrip :=
  ⟨fun e => ⟨decodeRoute_encodeRoute e, rfl⟩, fun old _ h => ⟨decodePanel_encodePanel old h, rfl⟩,
    fun _ h => ⟨decodeZone_encodeZone h, rfl⟩, fun _ h => ⟨decodeDevice_encodeDevice h, rfl⟩,
    fun _ h => ⟨decodeKiosk_encodeKiosk h, rfl⟩, fun _ h => ⟨decodeSpool_encodeSpool h, rfl⟩⟩

end Sys2Proof.Machine
end

section
/-! Proofs about the flags (sections 11.5, 11.6) and what the shared operations below the commands leave alone: the frame
of a row of moves. -/

namespace Sys2Proof.Machine

/-! ### Flags as bits (R150) -/

/-- The thirteen flags in the order of their bits. -/
def allFlags : List Flag :=
  [.spoolEvent, .kioskWarn, .kioskDegraded, .kioskIsolated, .kioskRecovered, .deviceFault, .deviceActivity,
    .deviceDrained, .panelAbsent, .panelPresent, .touchOverrun, .egressDrop, .storeDone]

theorem allFlags_getElem_bit (f : Flag) : allFlags[f.bit]? = some f := by cases f <;> rfl

theorem Flag.bit_inj {f g : Flag} : f.bit = g.bit ↔ f = g := by
  refine ⟨fun h => Option.some.inj ?_, fun h => h ▸ rfl⟩
  rw [← allFlags_getElem_bit f, h, allFlags_getElem_bit g]

theorem Flag.bit_lt (f : Flag) : f.bit < 13 := by cases f <;> decide

/-- A flag's mask holds that flag alone. -/
theorem Flag.isIn_mask (f g : Flag) : g.isIn f.mask = decide (g = f) := by
  rw [Flag.isIn, Flag.mask, BitVec.getLsbD_ofNat, Nat.testBit_two_pow, decide_eq_true g.bit_lt, Bool.true_and,
    decide_eq_decide, Flag.bit_inj]
  exact eq_comm

theorem Flag.isIn_or (f : Flag) (v w : FlagSet) : f.isIn (v ||| w) = (f.isIn v || f.isIn w) := BitVec.getLsbD_or

/-! ### Raising a flag (R167, R168) -/

theorem raise_of_isIn {s : State} {f : Flag} (h : f.isIn s.flags = true) : s.raise f = s := by
  rw [State.raise, if_pos h]

theorem raise_of_not_isIn {s : State} {f : Flag} (h : f.isIn s.flags = false) :
    s.raise f = match s.noticePort with
      | some k => if f.isIn s.noticeMask then (s.setFlags (s.flags ||| f.mask)).handNotice k
        else s.setFlags (s.flags ||| f.mask)
      | none => s.setFlags (s.flags ||| f.mask) := by
  unfold State.raise
  exact if_neg (by simp [h])

/-- R167, R168: raising a flag touches the flags and the kiosk ports alone. -/
theorem raise_frame (s : State) (f : Flag) :
    s.raise f = { s with kiosks := (s.raise f).kiosks, flags := (s.raise f).flags } := by
  unfold State.raise
  split
  · rfl
  · dsimp only
    split
    · split <;> rfl
    · rfl

theorem raise_flags (s : State) (f g : Flag) : g.isIn (s.raise f).flags = (g.isIn s.flags || decide (g = f)) := by
  cases h : f.isIn s.flags with
  | true =>
    rw [raise_of_isIn h]
    by_cases e : g = f
    · simp [e, h]
    · simp [e]
  | false =>
    have hflags : (s.raise f).flags = s.flags ||| f.mask := by
      rw [raise_of_not_isIn h]
      split
      · split <;> rfl
      · rfl
    rw [hflags, Flag.isIn_or, Flag.isIn_mask]

/-- R129: what a NOTICE leaves of its port. -/
theorem handNotice_kiosk (s : State) (n k : KioskId) :
    (s.handNotice n).kiosk k =
      if k = n ∧ (s.kiosk k).control.any ControlEntry.isNotice = false then
        { s.kiosk k with control := (s.kiosk k).control ++ [.notice] }
      else s.kiosk k := by
  unfold State.handNotice
  rw [modKiosk_kiosk]
  by_cases e : k = n
  · subst e
    cases h : (s.kiosk k).control.any ControlEntry.isNotice <;> simp
  · rw [if_neg e, if_neg (fun h => e h.1)]

theorem raise_kiosk_of_not_isIn {s : State} {f : Flag} (h : f.isIn s.flags = false) (k : KioskId) :
    (s.raise f).kiosk k =
      if s.noticePort = some k ∧ f.isIn s.noticeMask = true ∧ (s.kiosk k).control.any ControlEntry.isNotice = false
      then { s.kiosk k with control := (s.kiosk k).control ++ [.notice] } else s.kiosk k := by
  rw [raise_of_not_isIn h]
  cases hport : s.noticePort with
  | none => simp
  | some n =>
    cases hmask : f.isIn s.noticeMask with
    | false => simp
    | true =>
      simp [handNotice_kiosk, eq_comm (a := n)]

/-- Settles O17. -/
theorem raisingAFlag : Obligations.RaisingAFlag := fun s f =>
  ⟨raise_of_isIn, fun h => ⟨raise_flags s f, raise_kiosk_of_not_isIn h, raise_frame s f⟩⟩

@[simp] theorem raise_device (s : State) (f : Flag) (d : DeviceId) : (s.raise f).device d = s.device d := by
  rw [raise_frame]; rfl

@[simp] theorem raise_panel (s : State) (f : Flag) (p : PanelId) : (s.raise f).panel p = s.panel p := by
  rw [raise_frame]; rfl

@[simp] theorem raise_jobs (s : State) (f : Flag) : (s.raise f).jobs = s.jobs := by
  rw [raise_frame]

@[simp] theorem raise_free (s : State) (f : Flag) : (s.raise f).free = s.free := by
  rw [raise_frame]

/-! ### The frame of a row of moves -/

theorem KioskPort.QueuesOf.trans {K : Kind → Prop} {p q r : KioskPort} (h : p.QueuesOf K q) (g : q.QueuesOf K r) :
    p.QueuesOf K r := by
  obtain ⟨c, t, w, rfl, hc, ht, hw⟩ := h
  obtain ⟨c', t', w', rfl, hc', ht', hw'⟩ := g
  exact ⟨c', t', w', by rfl, hc'.trans hc, ht' ∘ ht, fun n => ⟨(hw' n).1.trans (hw n).1, (hw' n).2.trans (hw n).2⟩⟩

theorem Panel.SideOf.rfl {p : Panel} : p.SideOf p := ⟨p.presence, p.missRun, p.clamps, p.causes, by rfl, id, id⟩

theorem Panel.SideOf.trans {p q r : Panel} (h : p.SideOf q) (g : q.SideOf r) : p.SideOf r := by
  obtain ⟨_, m, c, _, rfl, hm, hc⟩ := h
  obtain ⟨pr', m', c', w', rfl, hm', hc'⟩ := g
  exact ⟨pr', m', c', w', by rfl, hm' ∘ hm, hc' ∘ hc⟩

/-- What every row of moves of the kinds `K` leaves as it was. -/
structure Framed (K : Kind → Prop) (s t : State) : Prop where
  routes : t.routes = s.routes
  zones : t.zones = s.zones
  spoolRecord : t.spoolRecord = s.spoolRecord
  store : t.store = s.store
  starting : t.starting = s.starting
  noticePort : t.noticePort = s.noticePort
  noticeMask : t.noticeMask = s.noticeMask
  pending : t.pending = s.pending
  freeIndex : t.freeIndex = s.freeIndex
  device : ∀ d, (t.device d).record = (s.device d).record
  panel : ∀ p, (s.panel p).SideOf (t.panel p)
  kiosk : ∀ k, (s.kiosk k).QueuesOf K (t.kiosk k)
  flags : ∀ f : Flag, f.isIn s.flags = true → f.isIn t.flags = true
  untouched : ¬ K .touch → t.contacts = s.contacts ∧ t.panels = s.panels
  unwritten : ¬ K .bytes → t.mem = s.mem

namespace Framed

variable {K : Kind → Prop} {s t u : State}

theorem refl : Framed K s s :=
  ⟨rfl, rfl, rfl, rfl, rfl, rfl, rfl, rfl, rfl, fun _ => rfl, fun _ => .rfl, fun _ => .rfl, fun _ => id,
    fun _ => ⟨rfl, rfl⟩, fun _ => rfl⟩

theorem trans (h : Framed K s t) (g : Framed K t u) : Framed K s u where
  routes := g.routes.trans h.routes
  zones := g.zones.trans h.zones
  spoolRecord := g.spoolRecord.trans h.spoolRecord
  store := g.store.trans h.store
  starting := g.starting.trans h.starting
  noticePort := g.noticePort.trans h.noticePort
  noticeMask := g.noticeMask.trans h.noticeMask
  pending := g.pending.trans h.pending
  freeIndex := g.freeIndex.trans h.freeIndex
  device := fun d => (g.device d).trans (h.device d)
  panel := fun p => (h.panel p).trans (g.panel p)
  kiosk := fun k => (h.kiosk k).trans (g.kiosk k)
  flags := fun f x => g.flags f (h.flags f x)
  untouched := fun n => ⟨(g.untouched n).1.trans (h.untouched n).1, (g.untouched n).2.trans (h.untouched n).2⟩
  unwritten := fun n => (g.unwritten n).trans (h.unwritten n)

theorem setKiosk {k : KioskId} {p : KioskPort} (h : (s.kiosk k).QueuesOf K p) : Framed K s (s.setKiosk k p) where
  routes := rfl
  zones := rfl
  spoolRecord := rfl
  store := rfl
  starting := rfl
  noticePort := rfl
  noticeMask := rfl
  pending := rfl
  freeIndex := rfl
  device := fun _ => rfl
  panel := fun _ => .rfl
  kiosk := fun n => by
    rw [setKiosk_kiosk]
    split
    · next e => exact e ▸ h
    · exact .rfl
  flags := fun _ => id
  untouched := fun _ => ⟨rfl, rfl⟩
  unwritten := fun _ => rfl

theorem setDevice {d : DeviceId} {p : DevicePort} (h : p.record = (s.device d).record) :
    Framed K s (s.setDevice d p) where
  routes := rfl
  zones := rfl
  spoolRecord := rfl
  store := rfl
  starting := rfl
  noticePort := rfl
  noticeMask := rfl
  pending := rfl
  freeIndex := rfl
  device := fun n => by
    rw [setDevice_device]
    split
    · next e => exact e ▸ h
    · rfl
  panel := fun _ => .rfl
  kiosk := fun _ => .rfl
  flags := fun _ => id
  untouched := fun _ => ⟨rfl, rfl⟩
  unwritten := fun _ => rfl

theorem setPanel (ht : K .touch) {p : PanelId} {q : Panel} (h : (s.panel p).SideOf q) :
    Framed K s (s.setPanel p q) where
  routes := rfl
  zones := rfl
  spoolRecord := rfl
  store := rfl
  starting := rfl
  noticePort := rfl
  noticeMask := rfl
  pending := rfl
  freeIndex := rfl
  device := fun _ => rfl
  panel := fun n => by
    rw [setPanel_panel]
    split
    · next e => exact e ▸ h
    · exact .rfl
  kiosk := fun _ => .rfl
  flags := fun _ => id
  untouched := fun n => absurd ht n
  unwritten := fun _ => rfl

/-- A state that differs in job records, free list, tight-spool condition, GRANT_POINTER, spool bytes, contacts and
further flags alone. -/
theorem of_eq (hk : t.kiosks = s.kiosks) (hd : t.devices = s.devices) (hp : t.panels = s.panels)
    (hr : t.routes = s.routes) (hz : t.zones = s.zones) (hsr : t.spoolRecord = s.spoolRecord) (hst : t.store = s.store)
    (hs : t.starting = s.starting) (hn : t.noticePort = s.noticePort) (hm : t.noticeMask = s.noticeMask)
    (hq : t.pending = s.pending) (hi : t.freeIndex = s.freeIndex)
    (hf : ∀ f : Flag, f.isIn s.flags = true → f.isIn t.flags = true) (hc : ¬ K .touch → t.contacts = s.contacts)
    (hb : ¬ K .bytes → t.mem = s.mem) : Framed K s t where
  routes := hr
  zones := hz
  spoolRecord := hsr
  store := hst
  starting := hs
  noticePort := hn
  noticeMask := hm
  pending := hq
  freeIndex := hi
  device := fun d => by rw [table_of_devices hd]
  panel := fun p => by unfold State.panel; rw [hp]; exact .rfl
  kiosk := fun k => by rw [table_of_kiosks hk]; exact .rfl
  flags := hf
  untouched := fun n => ⟨hc n, hp⟩
  unwritten := hb

end Framed

theorem handCredit_framed {K : Kind → Prop} (s : State) (k : KioskId) (ch : Byte) (slot : SlotId) (limit : Nat) :
    Framed K s (s.handCredit k ch slot limit) := by
  have h := handCredit_queues (K := K) s k k ch slot limit
  rw [State.handCredit, modKiosk_kiosk_self] at h
  exact .setKiosk h

theorem handJobEnd_framed {K : Kind → Prop} (s : State) (k : KioskId) (ch : Byte) (slot : SlotId) (reason : EndReason)
    (count : Nat) (le : Bool) : Framed K s (s.handJobEnd k ch slot reason count le) := by
  have h := handJobEnd_queues (K := K) s k k ch slot reason count le
  rw [State.handJobEnd, modKiosk_kiosk_self] at h
  exact .setKiosk h

theorem setJob_framed {K : Kind → Prop} (s : State) (i : JobId) (j : Option Job) : Framed K s (s.setJob i j) :=
  .of_eq rfl rfl rfl rfl rfl rfl rfl rfl rfl rfl rfl rfl (fun _ => id) (fun _ => rfl) (fun _ => rfl)

theorem dropped_framed {K : Kind → Prop} (s : State) (i : JobId) (j : Job) (reason : EndReason) :
    Framed K s (s.dropped i j reason) :=
  .trans (.setDevice (dropJob_record i j reason _)) (setJob_framed _ _ _)

theorem activate_framed {K : Kind → Prop} (s : State) (i : JobId) : Framed K s (s.activate i) := by
  unfold State.activate
  split
  · exact .refl
  · exact .trans (.setDevice (takeJob_record _ _)) (setJob_framed _ _ _)

theorem move_framed {K : Kind → Prop} {l l' : List BlockId} {s s' : State} (m : Move K (l, s) (l', s')) :
    Framed K s s' := by
  cases m with
  | kiosk k p h => exact .setKiosk h.1
  | device d p h => exact .setDevice h.1
  | flag f =>
    refine .of_eq rfl rfl rfl rfl rfl rfl rfl rfl rfl rfl rfl rfl (fun g h => ?_) (fun _ => rfl) (fun _ => rfl)
    show g.isIn (s.flags ||| f.mask) = true
    rw [Flag.isIn_or, h, Bool.true_or]
  | job hj i j k => exact setJob_framed s i (some k)
  | drop hj i j reason => exact dropped_framed s i j reason
  | finish hj i j reason count => exact .trans (dropped_framed s i j reason) (handJobEnd_framed _ _ _ _ _ _ _)
  | credit hj i j ch limit => exact handCredit_framed s _ ch _ limit
  | start hj d i => exact activate_framed s i
  | byte hb b n v =>
    exact .of_eq rfl rfl rfl rfl rfl rfl rfl rfl rfl rfl rfl rfl (fun _ => id) (fun _ => rfl) (fun n => absurd hb n)
  | contact ht c r =>
    exact .of_eq rfl rfl rfl rfl rfl rfl rfl rfl rfl rfl rfl rfl (fun _ => id) (fun n => absurd ht n) (fun _ => rfl)
  | panel ht p q h => exact .setPanel ht h
  | _ => exact .of_eq rfl rfl rfl rfl rfl rfl rfl rfl rfl rfl rfl rfl (fun _ => id) (fun _ => rfl) (fun _ => rfl)

theorem moves_framed {K : Kind → Prop} {l l' : List BlockId} {s s' : State} (m : Moves K l s l' s') : Framed K s s' :=
  m.keeps (P := fun _ t => Framed K s t) (fun _ _ _ _ step h => h.trans (move_framed step)) .refl

end Sys2Proof.Machine
end

section
/-! Proofs about the kiosk link (sections 9.2, 9.3): line events, the checks of a frame, the score, and the loss of a
port. -/

namespace Sys2Proof.Machine

variable {s : State} {k : KioskId}

/-! ### Line events (R143, R147) -/

theorem kioskBreak_of_starting (h : s.starting = true) : exec (.kioskBreak k) s = .next s := by
  simp [exec, execKioskBreak, h]

theorem kioskBreak_of_receiving (h : s.starting = false) (hl : (s.kiosk k).link ≠ .isolated) :
    exec (.kioskBreak k) s = .next (s.modKiosk k fun p =>
      { p with gathered := RxFrame.empty, cursor := none, echoPending := true }) := by
  simp [exec, execKioskBreak, h, hl]

theorem kioskBreak_of_isolated (h : s.starting = false) (hl : (s.kiosk k).link = .isolated) :
    exec (.kioskBreak k) s = .next (s.modKiosk k fun p => { p with cleanTimer := .running 1 }) := by
  simp [exec, execKioskBreak, h, hl]

theorem kioskChar_of_starting (c : Byte) (framing : Bool) (h : s.starting = true) :
    exec (.kioskCharReceived k c framing) s = .next s := by
  simp [exec, execKioskCharReceived, h]

theorem kioskChar_of_receiving (c : Byte) (framing : Bool) (h : s.starting = false)
    (hl : (s.kiosk k).link ≠ .isolated) :
    exec (.kioskCharReceived k c framing) s = .next (s.modKiosk k fun p =>
      { p with gathered := RxFrame.add p.gathered c framing }) := by
  simp [exec, execKioskCharReceived, h, hl]

theorem kioskChar_of_isolated (c : Byte) (framing : Bool) (h : s.starting = false)
    (hl : (s.kiosk k).link = .isolated) :
    exec (.kioskCharReceived k c framing) s = .next (s.modKiosk k fun p => { p with cleanTimer := .running 1 }) := by
  simp [exec, execKioskCharReceived, h, hl]

theorem cleanPeriod_of_not_isolated (hl : (s.kiosk k).link ≠ .isolated) : exec (.cleanPeriod k) s = .next s := by
  simp [exec, execCleanPeriod, hl]

theorem cleanPeriod_of_lt (hl : (s.kiosk k).link = .isolated) (hc : (s.kiosk k).cleanCount < 127) :
    exec (.cleanPeriod k) s = .next (s.modKiosk k fun p => { p with cleanCount := p.cleanCount + 1 }) := by
  have hlt : (s.kiosk k).cleanCount + 1 < 128 := by omega
  simp [exec, execCleanPeriod, hl, hlt]

theorem cleanPeriod_of_le (hl : (s.kiosk k).link = .isolated) (hc : 127 ≤ (s.kiosk k).cleanCount) :
    exec (.cleanPeriod k) s = .next ((s.modKiosk k fun p =>
      { p with link := .normal, score := 0, cleanCount := 0, cleanTimer := .stopped,
               gathered := RxFrame.empty }).raise .kioskRecovered) := by
  have hge : ¬ (s.kiosk k).cleanCount + 1 < 128 := by omega
  simp [exec, execCleanPeriod, hl, hge]

/-- Settles O18. -/
theorem kioskLineEvents : Obligations.KioskLineEvents :=
  ⟨fun _ _ c framing =>
    ⟨fun h hl => ⟨kioskBreak_of_receiving h hl, kioskChar_of_receiving c framing h hl⟩,
      fun h hl => ⟨kioskBreak_of_isolated h hl, kioskChar_of_isolated c framing h hl⟩,
      fun h => ⟨kioskBreak_of_starting h, kioskChar_of_starting c framing h⟩⟩,
    fun _ _ => ⟨cleanPeriod_of_not_isolated, cleanPeriod_of_lt, cleanPeriod_of_le⟩⟩

/-! ### The checks of a frame (R140, R141) -/

theorem firstFailure_framing {f : RxFrame} (h : f.framing = true) : RxFrame.firstFailure f = some .charFraming := by
  simp [RxFrame.firstFailure, h]

theorem firstFailure_overlength {f : RxFrame} (h : f.framing = false) (hc : 263 < f.count) :
    RxFrame.firstFailure f = some .overlength := by
  simp [RxFrame.firstFailure, h, hc]

theorem firstFailure_length {f : RxFrame} (h : f.framing = false) (hc : f.count ≤ 263)
    (hl : f.count < 7 ∨ 256 < word16 f.chars 3 ∨ f.count ≠ word16 f.chars 3 + 7) :
    RxFrame.firstFailure f = some .lengthMismatch := by
  have hover : ¬ 263 < f.count := by omega
  rw [RxFrame.firstFailure, if_neg (by simp [h]), if_neg hover]
  exact if_pos hl

theorem frameBody_length (ch kind tag : Byte) (payload : List Byte) :
    (frameBody ch kind tag payload).length = payload.length + 5 := by
  simp [frameBody, be16]

theorem frameBytes_length (ch kind tag : Byte) (payload : List Byte) :
    (frameBytes ch kind tag payload).length = payload.length + 7 := by
  simp [frameBytes, frameBody_length, be16]

/-- The two bytes behind a list, read as a number. -/
theorem word16_append_be16 (bs : List Byte) {n : Nat} (h : n < 65536) : word16 (bs ++ be16 n) bs.length = n := by
  have e0 : byteAt (bs ++ be16 n) bs.length = (byte (n / 256)).toNat := by
    simp [byteAt, be16]
  have e1 : byteAt (bs ++ be16 n) (bs.length + 1) = (byte n).toNat := by
    simp [byteAt, be16]
  rw [word16, e0, e1, word16_be16 h]

theorem goodFrame_wf (kind : Byte) {r : Request} (h : r.payload.length ≤ 256) : (goodFrame kind r).wf = true := by
  refine decide_eq_true ?_
  show (frameBytes r.channel kind r.tag r.payload).length = min (r.payload.length + 7) 263
  rw [frameBytes_length]
  omega

theorem goodFrame_passes (kind : Byte) {r : Request} (h : r.payload.length ≤ 256) :
    RxFrame.firstFailure (goodFrame kind r) = none := by
  have hbody : (goodFrame kind r).count - 2 = (frameBody r.channel kind r.tag r.payload).length := by
    rw [frameBody_length]
    show r.payload.length + 7 - 2 = _
    omega
  have hlength : (goodFrame kind r).count = word16 (goodFrame kind r).chars 3 + 7 := by
    show r.payload.length + 7 = (byte (r.payload.length / 256)).toNat * 256 + (byte r.payload.length).toNat + 7
    rw [word16_be16 (by omega)]
  have hmin : 7 ≤ (goodFrame kind r).count := Nat.le_add_left _ _
  have hmax : (goodFrame kind r).count ≤ 263 := Nat.add_le_add_right h 7
  have htake : (goodFrame kind r).chars.take ((goodFrame kind r).count - 2) =
      frameBody r.channel kind r.tag r.payload := by
    rw [hbody]
    exact List.take_left
  have hcrc : word16 (goodFrame kind r).chars ((goodFrame kind r).count - 2) =
      (crc16 (frameBody r.channel kind r.tag r.payload)).toNat := by
    rw [hbody]
    exact word16_append_be16 _ (BitVec.isLt _)
  rw [RxFrame.firstFailure_of_length_ok rfl hmin hmax hlength, htake, hcrc, if_pos rfl]

/-- Settles O19. -/
theorem frameChecks : Obligations.FrameChecks := by
  refine ⟨fun f => ⟨firstFailure_framing, firstFailure_overlength, firstFailure_length, fun h hmin hmax hl hcrc => ?_⟩,
    fun kind r h => ⟨goodFrame_wf kind h, goodFrame_passes kind h⟩⟩
  rw [RxFrame.firstFailure_of_length_ok h hmin hmax hl, if_neg hcrc]

/-! ### The score (R144, R145) -/

theorem increaseScore_of_lt (h : (s.kiosk k).score < 248) :
    s.increaseScore k =
      let degrades := (s.kiosk k).link = .normal ∧ 120 ≤ (s.kiosk k).score
      let t := s.modKiosk k fun p => { p with score := p.score + 8, link := if degrades then .degraded else p.link }
      let u := if 88 ≤ (s.kiosk k).score ∧ (s.kiosk k).score < 96 then t.raise .kioskWarn else t
      if degrades then u.raise .kioskDegraded else u := by
  have hlow : ¬ 248 ≤ (s.kiosk k).score := by omega
  have hdegraded : (128 ≤ (s.kiosk k).score + 8) = (120 ≤ (s.kiosk k).score) := propext (by omega)
  have hwarn : ((s.kiosk k).score < 96 ∧ 96 ≤ (s.kiosk k).score + 8) =
      (88 ≤ (s.kiosk k).score ∧ (s.kiosk k).score < 96) := propext (by omega)
  unfold State.increaseScore
  rw [if_neg hlow]
  simp only [hdegraded, hwarn]
  rfl

theorem increaseScore_of_le (h : 248 ≤ (s.kiosk k).score) : s.increaseScore k = s.isolate k := by
  unfold State.increaseScore
  exact if_pos h

/-- R140: a taken frame that fails a check. -/
theorem frameCheckFailed_of_failure {f : RxFrame} {c : KioskCause} (hs : s.starting = false)
    (hl : (s.kiosk k).link ≠ .isolated) (hwf : f.wf = true) (hc : 0 < f.count)
    (hg : (s.kiosk k).gathered = RxFrame.empty ∨ (s.kiosk k).gathered = f) (hf : RxFrame.firstFailure f = some c) :
    exec (.frameCheckFailed k f) s = .next
      ((s.modKiosk k fun p => KioskPort.latch c { p with gathered := RxFrame.empty }).increaseScore k) := by
  have hpresents : (s.kiosk k).presents f = true := by
    simpa [KioskPort.presents] using hg
  have hreceives : s.receives k = true := by simp [State.receives, hs, hl]
  simp [exec, execFrameCheckFailed, hreceives, hwf, hc, hpresents, hf, State.penalize, State.latchKiosk,
    modKiosk_modKiosk]

/-- Settles O20. -/
theorem frameCheckFailureScores : Obligations.FrameCheckFailureScores := by
  intro s k f c hs hl hwf hc hg hf hscore
  rw [frameCheckFailed_of_failure hs hl hwf hc hg hf, increaseScore_of_lt (by rwa [modKiosk_kiosk_self])]
  simp only [modKiosk_kiosk_self, modKiosk_modKiosk]
  rfl

/-! ### The loss of a port (R23, R121, R137, R146) -/

/-- Below the commands a port's queues and cause set alone change; a port that is lost forgets them. -/
theorem KioskPort.QueuesOf.drop_eq {K : Kind → Prop} {p q : KioskPort} (h : p.QueuesOf K q) : q.drop = p.drop := by
  obtain ⟨c, t, w, rfl, -, -, -⟩ := h
  rfl

theorem dropNoticePort_drop (s : State) (k n : KioskId) : ((s.dropNoticePort k).kiosk n).drop = (s.kiosk n).drop := by
  unfold State.dropNoticePort
  split
  · rw [setNotice_kiosk, modKiosk_kiosk]
    split
    · next e => rw [e]; rfl
    · rfl
  · rfl

theorem dropNoticePort_flags (s : State) (k : KioskId) : (s.dropNoticePort k).flags = s.flags := by
  unfold State.dropNoticePort
  split <;> rfl

/-- The moves of an operation that touches neither contacts nor the spool's bytes. -/
def jobsOnly (c : Kind) : Prop := c = .jobs

theorem endPortJobs_framed (s : State) (k : KioskId) : Framed anyKind s (s.endPortJobs k) :=
  moves_framed (endPortJobs_moves [] s k)

theorem settleAll_framed (s : State) (ds : List DeviceId) : Framed jobsOnly s (s.settleAll ds) :=
  moves_framed (settleAll_moves (K := jobsOnly) [] s rfl ds)

/-- Where nothing but jobs is changed, a port keeps its touch queue and its cause set. -/
theorem KioskPort.QueuesOf.eq_of_control {p q : KioskPort} (h : p.QueuesOf jobsOnly q) (hc : q.control = p.control) :
    q = p := by
  obtain ⟨c, t, w, rfl, -, -, hside⟩ := h
  obtain ⟨rfl, rfl⟩ := hside (fun e => by cases e)
  cases hc
  rfl

theorem dropPort_kiosk (s : State) (k : KioskId) : (s.dropPort k).kiosk k = (s.kiosk k).drop := by
  have hdrop : ((((s.dropNoticePort k).endPortJobs k).modKiosk k KioskPort.drop).loseOwner k).kiosk k =
      (s.kiosk k).drop := by
    calc ((((s.dropNoticePort k).endPortJobs k).modKiosk k KioskPort.drop).loseOwner k).kiosk k
        = (((s.dropNoticePort k).endPortJobs k).kiosk k).drop := modKiosk_kiosk_self ..
      _ = ((s.dropNoticePort k).kiosk k).drop := ((endPortJobs_framed _ k).kiosk k).drop_eq
      _ = (s.kiosk k).drop := dropNoticePort_drop s k k
  rw [← hdrop]
  refine ((settleAll_framed _ _).kiosk k).eq_of_control ?_
  rw [hdrop]
  exact (dropPort_quiet s k).2.2

theorem dropPort_flags {f : Flag} (h : f.isIn s.flags = true) : f.isIn (s.dropPort k).flags = true :=
  (settleAll_framed _ _).flags f ((endPortJobs_framed _ k).flags f ((dropNoticePort_flags s k).symm ▸ h))

theorem loseOwner_contact (s : State) (k : KioskId) (c : ContactIx) :
    (s.loseOwner k).contact c = (s.contact c).loseOwner k := mapTable_get ..

/-- R121: the contacts that a lost port owns are silent and owe it nothing. -/
theorem dropPort_silent {x : ContactIx} {b : Binding} (h : (s.dropPort k).contact x = .bound b) (hk : b.owner = k) :
    b.visible = false ∧ b.upOwed = false := by
  have hcontacts := ((settleAll_framed ((((s.dropNoticePort k).endPortJobs k).modKiosk k KioskPort.drop).loseOwner k)
    (s.portDevices k)).untouched (fun e => by cases e)).1
  have hx : (s.dropPort k).contact x =
      ((((s.dropNoticePort k).endPortJobs k).modKiosk k KioskPort.drop).contact x).loseOwner k := by
    rw [← loseOwner_contact]
    exact congrArg (fun v : Vector Contact 160 => v[x]) hcontacts
  rw [hx] at h
  revert h
  cases (((s.dropNoticePort k).endPortJobs k).modKiosk k KioskPort.drop).contact x with
  | free => exact fun h => nomatch h
  | unzoned => exact fun h => nomatch h
  | bound o =>
    intro h
    by_cases ho : o.owner = k
    · cases hu : o.upOwed <;> simp only [Contact.loseOwner, ho, hu, if_true, Bool.false_eq_true, if_false] at h
      · cases h
        exact ⟨rfl, rfl⟩
      · cases h
    · simp only [Contact.loseOwner, if_neg ho] at h
      cases h
      exact absurd hk ho

/-- R146: the port that has entered ISOLATED. -/
theorem isolate_kiosk (s : State) (k : KioskId) : (s.isolate k).kiosk k = ((s.kiosk k).enterIsolated).drop := by
  unfold State.isolate
  rw [dropPort_kiosk, ((moves_framed (K := anyKind) (raise_moves [] _ _)).kiosk k).drop_eq, modKiosk_kiosk_self]
  show KioskPort.enterIsolated (((s.dropNoticePort k).kiosk k).drop) = _
  rw [dropNoticePort_drop]
  rfl

theorem isolate_flags (s : State) (k : KioskId) : Flag.kioskIsolated.isIn (s.isolate k).flags = true := by
  refine dropPort_flags ?_
  rw [raise_flags]
  simp

/-- Settles O21. -/
theorem frameCheckFailureIsolates : Obligations.FrameCheckFailureIsolates := by
  intro s k f c hs hl hwf hc hg hf hscore
  refine ⟨_, frameCheckFailed_of_failure hs hl hwf hc hg hf, ?_⟩
  rw [increaseScore_of_le (by rwa [modKiosk_kiosk_self])]
  obtain ⟨hnotice, hjobs, -⟩ := dropPort_quiet
    ((((s.modKiosk k fun p => KioskPort.latch c { p with gathered := RxFrame.empty }).dropNoticePort k).modKiosk k
      KioskPort.enterIsolated).raise .kioskIsolated) k
  refine ⟨?_, hjobs, hnotice, isolate_flags _ k, fun x b h hk => dropPort_silent h hk⟩
  rw [isolate_kiosk, modKiosk_kiosk_self]
  rfl

end Sys2Proof.Machine
end

section
/-! Proofs about the taking of requests (sections 8.2, 9.2, 11.2): which good frame is taken, which request is dropped,
and the refusals that come before a request is served. -/

namespace Sys2Proof.Machine

variable {s : State} {k : KioskId} {kind : Byte} {r : Request}

/-! ### Taking a frame (R126, R142) -/

theorem takes_iff (s : State) (k : KioskId) (kind : Byte) (r : Request) :
    s.takes k kind r = true ↔ s.starting = false ∧ (s.kiosk k).link ≠ .isolated ∧ r.payload.length ≤ 256 ∧
      ((s.kiosk k).gathered = RxFrame.empty ∨ (s.kiosk k).gathered = goodFrame kind r) := by
  have hwf : r.wf = true ↔ r.payload.length ≤ 256 := decide_eq_true_iff
  simp [State.takes, State.receives, hwf, KioskPort.presents, and_assoc]

/-- R145: the score after the decrement is below the degraded range exactly when it was at most 128. -/
theorem takeGood_eq (p : KioskPort) :
    p.takeGood = { p with
      gathered := RxFrame.empty, score := p.score - 1,
      link := if p.link = .degraded ∧ p.score ≤ 128 then .normal else p.link } := by
  have hscore : (p.score - 1 ≤ 127) = (p.score ≤ 128) := propext (by omega)
  rw [takeGood_fields]
  simp only [hscore]

theorem replyRoom_iff (p : KioskPort) :
    p.replyRoom = true ↔
      (p.control.filter fun e => match e with | .reply _ _ _ _ _ _ => true | _ => false).length +
        (if p.replyHeld then 1 else 0) < 9 := by
  have hfilter : (fun e : ControlEntry => match e with | .reply _ _ _ _ _ _ => true | _ => false) =
      ControlEntry.isReply := by
    funext e
    cases e <;> rfl
  rw [hfilter]
  exact decide_eq_true_iff

/-! ### Commands that serve one request -/

/-- The command is the serving of a request of this KIND. -/
def Serves (s : State) (k : KioskId) (kind : Byte) (r : Request) (c : Instr) : Prop :=
  ∃ f, exec c s = .next (s.serve k kind r f)

namespace Serves

variable {c : Instr}

theorem untaken (h : Serves s k kind r c) (ht : s.takes k kind r = false) : exec c s = .next s := by
  obtain ⟨f, h⟩ := h
  rw [h, serve_untaken f ht]

theorem full (h : Serves s k kind r c) (ht : s.takes k kind r = true) (hr : (s.kiosk k).replyRoom = false) :
    exec c s = .next (((s.modKiosk k KioskPort.takeGood).latchKiosk k .requestDropped).raise .egressDrop) := by
  obtain ⟨f, h⟩ := h
  rw [h, serve_full f ht hr]
  rfl

theorem of_serveManage {form : Bool} {f : State → State} (h : exec c s = .next (s.serveManage k kind r form f)) :
    Serves s k kind r c := ⟨_, h⟩

end Serves

/-- The commands of a request by its KIND alone. -/
theorem serves_of_mem {row : Byte × (KioskId → Request → Instr)}
    (h : row ∈ [(kindJobOpen, Instr.jobOpen), (kindJobClose, Instr.jobClose), (kindJobAbort, Instr.jobAbort),
        (kindJobQuery, Instr.jobQuery), (kindUnlock, Instr.unlock), (kindLock, Instr.lock),
        (kindTableRead, Instr.tableRead), (kindTableReadNext, Instr.tableReadNext),
        (kindTableWriteNext, Instr.tableWriteNext), (kindStatusRead, Instr.statusRead),
        (kindPortStatus, Instr.portStatus), (kindDeviceStatus, Instr.deviceStatus), (kindFlagsClear, Instr.flagsClear),
        (kindNoticeSet, Instr.noticeSet), (kindStoreWrite, Instr.storeWrite), (kindSwitchReset, Instr.switchReset),
        (kindPortReset, Instr.portReset), (kindDeviceDrain, Instr.deviceDrain), (kindDeviceResume, Instr.deviceResume),
        (kindDeviceReset, Instr.deviceReset), (kindDeviceBreak, Instr.deviceBreak)]) (s : State) (k : KioskId)
    (r : Request) : Serves s k row.1 r (row.2 k r) := by
  simp only [List.mem_cons, List.not_mem_nil, or_false] at h
  rcases h with rfl | rfl | rfl | rfl | rfl | rfl | rfl | rfl | rfl | rfl | rfl | rfl | rfl | rfl | rfl | rfl | rfl |
    rfl | rfl | rfl | rfl <;> exact ⟨_, rfl⟩

/-- The TABLE_WRITE commands of the tables whose entries are numbered. -/
theorem serves_write_of_mem {row : TableId × (KioskId → Byte → Byte → Byte → List Byte → Instr)}
    (h : row ∈ [(.route, Instr.tableWriteRoute), (.panel, Instr.tableWritePanel), (.zone, Instr.tableWriteZone),
      (.device, Instr.tableWriteDevice), (.kiosk, Instr.tableWriteKiosk)]) (s : State) (k : KioskId)
    (ch tag index : Byte) (record : List Byte) :
    Serves s k kindTableWrite { channel := ch, tag := tag, payload := [byte row.1.code, index] ++ record }
      (row.2 k ch tag index record) := by
  simp only [List.mem_cons, List.not_mem_nil, or_false] at h
  rcases h with rfl | rfl | rfl | rfl | rfl <;> exact .of_serveManage rfl

theorem serves_writeSpool (s : State) (k : KioskId) (ch tag : Byte) (record : List Byte) :
    Serves s k kindTableWrite { channel := ch, tag := tag, payload := [4#8, 16#8] ++ record }
      (.tableWriteSpool k ch tag record) := .of_serveManage rfl

theorem namesWritable_iff (payload : List Byte) :
    namesWritable payload = true ↔ 2 ≤ payload.length ∧ byteAt payload 0 ≤ 4 := by
  simp [namesWritable]

theorem tableWriteReadOnly_of_writable (h : namesWritable r.payload = true) :
    exec (.tableWriteReadOnly k r) s = .next s := by
  simp [exec, execTableWriteReadOnly, h]

theorem serves_writeReadOnly (h : namesWritable r.payload = false) :
    Serves s k kindTableWrite r (.tableWriteReadOnly k r) :=
  ⟨_, by simp only [exec, execTableWriteReadOnly, h, Bool.false_eq_true, if_false]; rfl⟩

theorem isBadFrame_iff (kind : Byte) (r : Request) :
    isBadFrame kind r = true ↔ kind ≠ kindJobData ∧
      (2 < service r.channel ∨ (isJobKind kind = false ∧ isManageKind kind = false) ∨
        (isJobKind kind = true ∧ service r.channel = serviceManage) ∨
        (isManageKind kind = true ∧ service r.channel ≠ serviceManage)) := by
  simp [isBadFrame, or_assoc]

theorem badFrameRequest_of_named (h : isBadFrame kind r = false) : exec (.badFrameRequest k kind r) s = .next s := by
  simp [exec, execBadFrameRequest, h]

theorem badFrameRequest_of_bad (h : isBadFrame kind r = true) :
    exec (.badFrameRequest k kind r) s = .next (s.serve k kind r fun t => t.refuse k kind r .badRequest) := by
  simp [exec, execBadFrameRequest, h]

theorem jobData_of_untaken (h : s.takes k kindJobData r = false) : exec (.jobData k r) s = .next s := by
  simp [exec, execJobData, h]

/-- Settles O22. -/
theorem requestsTakenOrDropped : Obligations.RequestsTakenOrDropped := by
  refine ⟨takes_iff, takeGood_eq, replyRoom_iff, fun row h s k r => ?_, fun s k ch tag index record => ?_,
    fun s k kind r => ?_⟩
  · exact ⟨(serves_of_mem h s k r).untaken, (serves_of_mem h s k r).full⟩
  · refine ⟨fun row h => ?_, ?_⟩
    · exact ⟨(serves_write_of_mem h s k ch tag index record).untaken,
        (serves_write_of_mem h s k ch tag index record).full⟩
    · exact ⟨(serves_writeSpool s k ch tag record).untaken, (serves_writeSpool s k ch tag record).full⟩
  · have hreadOnly : r.payload.length < 2 ∨ 4 < byteAt r.payload 0 → namesWritable r.payload = false := fun h =>
      Bool.eq_false_iff.mpr fun hw => by
        have := (namesWritable_iff _).mp hw
        omega
    refine ⟨fun h => ?_, fun h => tableWriteReadOnly_of_writable ((namesWritable_iff _).mpr h),
      fun h => (serves_writeReadOnly (hreadOnly h)).full, fun h => ?_, fun hbad ht hr => ?_, jobData_of_untaken⟩
    · cases hw : namesWritable r.payload with
      | true => exact tableWriteReadOnly_of_writable hw
      | false => exact (serves_writeReadOnly hw).untaken h
    · cases hb : isBadFrame kind r with
      | false => exact badFrameRequest_of_named hb
      | true =>
        have ht := h.resolve_right (not_not_intro ((isBadFrame_iff _ _).mp hb))
        rw [badFrameRequest_of_bad hb, serve_untaken _ ht]
    · rw [badFrameRequest_of_bad ((isBadFrame_iff _ _).mpr hbad), serve_full _ ht hr]
      rfl

/-- Settles O23. -/
theorem badFrameRequestIsAnswered : Obligations.BadFrameRequestIsAnswered := by
  intro s k kind r hkind hbad ht hr
  rw [badFrameRequest_of_bad ((isBadFrame_iff _ _).mpr ⟨hkind, hbad⟩), serve_taken _ ht hr]
  rfl

/-! ### The refusals of a management request (R164) -/

/-- Settles O24. -/
theorem managementRefusals : Obligations.ManagementRefusals := by
  intro row h s k r ht hr
  have hserve : ∃ f, exec (row.2.1 k r) s =
      .next (s.serveManage k row.1 r (decide (r.payload.length = row.2.2)) f) := by
    simp only [List.mem_cons, List.not_mem_nil, or_false] at h
    rcases h with rfl | rfl | rfl | rfl | rfl | rfl | rfl | rfl | rfl | rfl | rfl | rfl | rfl | rfl | rfl <;>
      exact ⟨_, rfl⟩
  obtain ⟨f, hserve⟩ := hserve
  rw [hserve]
  refine ⟨fun hs => ?_, fun hs hu => ?_, fun hs hu hl => ?_⟩
  · rw [serveManage_service _ f ht hr hs]
  · rw [serveManage_locked _ f ht hr hs hu]
  · rw [serveManage_form _ f ht hr hs hu (decide_eq_false hl)]

end Sys2Proof.Machine
end

section
/-! Proofs about JOB_OPEN (chapter 2): its form, the slot, the route lookup, the refusals in their order, and the
admission. -/

namespace Sys2Proof.Machine

variable {s : State} {k : KioskId} {r : Request}

/-! ### What the checks look at (R1, R27, R31, R34) -/

theorem parseOpen_eq_none_iff (ch : Byte) (payload : List Byte) :
    parseOpen ch payload = none ↔
      (service ch ≠ servicePrint ∧ service ch ≠ serviceScan) ∨ 3 ≤ byteAt payload 0 ∨
        (service ch = servicePrint ∧ payload.length ≠ 5) ∨
        (service ch = serviceScan ∧
          (payload.length < 5 ∨ 64 < byteAt payload 4 ∨ payload.length ≠ 5 + byteAt payload 4)) := by
  have hservices : servicePrint ≠ serviceScan := by decide
  unfold parseOpen
  by_cases h3 : 3 ≤ byteAt payload 0
  · rw [toFin_eq_none h3]
    simp [h3]
  · rw [toFin_eq_some (Nat.lt_of_not_le h3)]
    dsimp only
    split_ifs <;> simp only [eq_self, false_iff, true_iff] <;> omega

theorem occupied_iff (s : State) (k : KioskId) (slot : SlotId) :
    s.occupied k slot = true ↔ s.job (jobIx k slot) ≠ none ∨
      ∃ ch reason count le, ControlEntry.jobEnd ch slot reason count le ∈ (s.kiosk k).control := by
  rw [State.occupied, Bool.or_eq_true, Option.isSome_iff_ne_none, State.jobEndWaits, List.any_eq_true]
  refine or_congr_right ⟨fun ⟨e, hmem, he⟩ => ?_, fun ⟨ch, reason, count, le, hmem⟩ => ⟨_, hmem, beq_self_eq_true _⟩⟩
  cases e with
  | jobEnd ch t reason count le =>
    obtain rfl : t = slot := eq_of_beq he
    exact ⟨ch, reason, count, le, hmem⟩
  | reply => cases he
  | credit => cases he
  | notice => cases he

theorem decides_iff (e : RouteEntry) (ch : Byte) (k : KioskId) :
    e.decides ch k = true ↔ e.enabled = true ∧ e.ports.getLsbD k.val = true ∧ e.matches ch = true := by
  rw [RouteEntry.decides, Bool.and_eq_true, Bool.and_eq_true, and_assoc]

/-- R27: the lookup is a search through the table from its first entry. -/
theorem lookup_eq_find (s : State) (ch : Byte) (k : KioskId) :
    s.lookup ch k = Fin.find? fun e => (s.route e).decides ch k := Fin.find?_eq_find?_finRange.symm

theorem lookup_eq_some_iff (s : State) (ch : Byte) (k : KioskId) (e : RouteId) :
    s.lookup ch k = some e ↔ (s.route e).decides ch k = true ∧ ∀ x < e, (s.route x).decides ch k = false := by
  rw [lookup_eq_find, Fin.find?_eq_some_iff]

theorem lookup_eq_none_iff (s : State) (ch : Byte) (k : KioskId) :
    s.lookup ch k = none ↔ ∀ e, (s.route e).decides ch k = false := by
  rw [lookup_eq_find, Fin.find?_eq_none_iff]

theorem serves_iff (c : DeviceClass) (kind : JobKind) :
    c.serves kind = true ↔ (c = .printer ∧ kind = .print) ∨ (c = .scanner ∧ kind = .scan) := by
  cases c <;> cases kind <;> decide

/-! ### The checks in their order (R31–R35) -/

theorem jobOpen_taken (ht : s.takes k kindJobOpen r = true) (hr : (s.kiosk k).replyRoom = true) :
    exec (.jobOpen k r) s = .next ((s.modKiosk k KioskPort.takeGood).openJob k r) :=
  congrArg Host.Outcome.next (serve_taken _ ht hr)

theorem openJob_of_form (hp : parseOpen r.channel r.payload = none) :
    s.openJob k r = s.refuse k kindJobOpen r .badRequest := by
  simp only [State.openJob, hp]

section

variable {a : OpenArgs} (hp : parseOpen r.channel r.payload = some a)
include hp

theorem openJob_of_occupied (ho : s.occupied k a.slot = true) :
    s.openJob k r = s.reply k kindJobOpen r .slotBusy (openFields a.slot none none none) := by
  simp only [State.openJob, hp, ho, if_true]

variable (ho : s.occupied k a.slot = false)
include ho

theorem openJob_of_degraded (hl : (s.kiosk k).link = .degraded) :
    s.openJob k r = s.reply k kindJobOpen r .portDegraded (openFields a.slot none none none) := by
  simp only [State.openJob, hp, ho, hl, if_true, Bool.false_eq_true, if_false]

variable (hl : (s.kiosk k).link ≠ .degraded)
include hl

theorem openJob_of_no_route (he : s.lookup r.channel k = none) :
    s.openJob k r = s.reply k kindJobOpen r .denied (openFields a.slot none none none) := by
  simp only [State.openJob, hp, ho, hl, he, Bool.false_eq_true, if_false]

variable {e : RouteId} (he : s.lookup r.channel k = some e)
include he

theorem openJob_of_deny (ha : (s.route e).action = .deny) :
    s.openJob k r = (s.setRoute e (s.route e).hit).reply k kindJobOpen r .denied
      (openFields a.slot (some e) none none) := by
  simp only [State.openJob, hp, ho, hl, he, ha, Bool.false_eq_true, if_false]

theorem openJob_of_accept (ha : (s.route e).action = .accept) :
    s.openJob k r = (s.setRoute e (s.route e).hit).admitOrRefuse k r a e (s.route e).device := by
  simp only [State.openJob, hp, ho, hl, he, ha, Bool.false_eq_true, if_false]

end

theorem admitOrRefuse_of_class {a : OpenArgs} {e : RouteId} {d : DeviceId}
    (h : (s.device d).record.cls.serves a.kind = false) :
    s.admitOrRefuse k r a e d = s.reply k kindJobOpen r .noDevice (openFields a.slot (some e) (some d) none) := by
  simp only [State.admitOrRefuse, h, Bool.not_false, if_true]

theorem admitOrRefuse_of_full {a : OpenArgs} {e : RouteId} {d : DeviceId}
    (h : (s.device d).record.cls.serves a.kind = true) (hq : 16 ≤ (s.device d).queue.length) :
    s.admitOrRefuse k r a e d = s.reply k kindJobOpen r .queueFull (openFields a.slot (some e) (some d) none) := by
  have hcap : Config.queueCap ≤ (s.device d).queue.length := hq
  simp only [State.admitOrRefuse, h, hcap, Bool.not_true, Bool.false_eq_true, if_false, if_true]

theorem admitOrRefuse_of_room {a : OpenArgs} {e : RouteId} {d : DeviceId}
    (h : (s.device d).record.cls.serves a.kind = true) (hq : (s.device d).queue.length < 16) :
    s.admitOrRefuse k r a e d = s.enrol k r a e d := by
  have hcap : ¬ Config.queueCap ≤ (s.device d).queue.length := Nat.not_le_of_lt hq
  simp only [State.admitOrRefuse, h, hcap, Bool.not_true, Bool.false_eq_true, if_false]

/-- Settles O25. -/
theorem jobOpenRefusals : Obligations.JobOpenRefusals := by
  refine ⟨parseOpen_eq_none_iff, occupied_iff, fun s ch k => ⟨fun e => ?_, ?_⟩, serves_iff, fun s k r ht hr => ?_⟩
  · simp only [lookup_eq_some_iff, ← decides_iff, Bool.not_eq_true]
  · simp only [lookup_eq_none_iff, ← decides_iff, Bool.not_eq_true]
  · rw [jobOpen_taken ht hr]
    intro G
    refine ⟨fun hp => congrArg _ (openJob_of_form hp), fun a hp => ⟨fun ho => congrArg _ (openJob_of_occupied hp ho),
      fun ho hl => congrArg _ (openJob_of_degraded hp ho hl),
      fun ho hl he => congrArg _ (openJob_of_no_route hp ho hl he), fun e ho hl he => ⟨fun ha => ?_, fun ha hc => ?_,
        fun ha hc hq => ?_⟩⟩⟩
    · exact congrArg _ (openJob_of_deny hp ho hl he ha)
    · exact congrArg _ ((openJob_of_accept hp ho hl he ha).trans (admitOrRefuse_of_class hc))
    · exact congrArg _ ((openJob_of_accept hp ho hl he ha).trans (admitOrRefuse_of_full hc hq))

/-! ### Admission (R2, R31, R36, R37) -/

theorem parseOpen_print {ch : Byte} (h : service ch = servicePrint) (slot : SlotId) (pr a b c : Byte) :
    parseOpen ch [byte slot.val, pr, a, b, c] =
      some { slot := slot, priority := pr, kind := .print,
             declaredLength := a.toNat * 65536 + b.toNat * 256 + c.toNat, maxBlocks := 0, command := [] } := by
  have hslot : byteAt [byte slot.val, pr, a, b, c] 0 = slot.val := byte_toNat_of_le (by omega)
  have hpr : byte (byteAt [byte slot.val, pr, a, b, c] 1) = pr := byte_toNat_self pr
  simp only [parseOpen, hslot, toFin_val, h, if_true, hpr]
  rfl

theorem parseOpen_scan {ch : Byte} (h : service ch = serviceScan) (slot : SlotId) (pr a b : Byte) {command : List Byte}
    (hlen : command.length ≤ 64) :
    parseOpen ch ([byte slot.val, pr, a, b, byte command.length] ++ command) =
      some { slot := slot, priority := pr, kind := .scan, declaredLength := 0,
             maxBlocks := max 1 (min (a.toNat * 256 + b.toNat) 2048), command := command } := by
  have hslot : byteAt ([byte slot.val, pr, a, b, byte command.length] ++ command) 0 = slot.val :=
    byte_toNat_of_le (by omega)
  have hpr : byte (byteAt ([byte slot.val, pr, a, b, byte command.length] ++ command) 1) = pr := byte_toNat_self pr
  have hcount : byteAt ([byte slot.val, pr, a, b, byte command.length] ++ command) 4 = command.length :=
    byte_toNat_of_le (by omega)
  have hprint : service ch ≠ servicePrint := by
    rw [h]
    decide
  have hform : 5 ≤ ([byte slot.val, pr, a, b, byte command.length] ++ command).length ∧ command.length ≤ 64 ∧
      ([byte slot.val, pr, a, b, byte command.length] ++ command).length = 5 + command.length := by
    simp
    omega
  unfold parseOpen
  rw [hslot, toFin_val]
  dsimp only
  rw [if_neg hprint, if_pos h, hcount, if_pos hform, hpr]
  rfl

/-- Settles O26. -/
theorem jobOpenAdmits : Obligations.JobOpenAdmits := by
  refine ⟨fun ch slot pr a b c h => parseOpen_print h slot pr a b c,
    fun ch slot pr a b command h hlen => parseOpen_scan h slot pr a b hlen,
    fun s k r a e ht hr hp ho hl he ha hc hq => ?_⟩
  rw [jobOpen_taken ht hr]
  exact congrArg _ ((openJob_of_accept hp ho hl he ha).trans (admitOrRefuse_of_room hc hq))

end Sys2Proof.Machine
end

section
/-! Proofs about JOB_DATA (sections 4.2, 4.3): its cases, where its bytes go, and the start threshold. -/

namespace Sys2Proof.Machine

variable {s : State} {k : KioskId} {r : Request}

/-! ### The job that a JOB_DATA frame is for (R56) -/

theorem dataTarget_of_form (h : service r.channel ≠ servicePrint ∨ r.payload.length < 5 ∨ 3 ≤ byteAt r.payload 0) :
    s.dataTarget k r = none := by
  unfold State.dataTarget
  split
  · next hform =>
    have h3 : 3 ≤ byteAt r.payload 0 := by omega
    rw [toFin_eq_none h3]
  · rfl

section

variable {slot : SlotId} (hs : service r.channel = servicePrint) (hn : 5 ≤ r.payload.length)
  (hslot : byteAt r.payload 0 = slot.val)
include hs hn hslot

theorem dataTarget_of_no_print (h : ∀ j, s.job (jobIx k slot) = some j → j.kind = .scan) :
    s.dataTarget k r = none := by
  unfold State.dataTarget
  rw [if_pos ⟨hs, hn⟩, hslot, toFin_val]
  dsimp only
  split
  · rfl
  · next j hj => rw [if_neg (by rw [h j hj]; decide)]

theorem dataTarget_of_print {j : Job} (hj : s.job (jobIx k slot) = some j) (hk : j.kind = .print) :
    s.dataTarget k r = some (jobIx k slot) := by
  unfold State.dataTarget
  rw [if_pos ⟨hs, hn⟩, hslot, toFin_val]
  dsimp only
  rw [hj]
  exact if_pos hk

theorem jobData_of_print {j : Job} (hj : s.job (jobIx k slot) = some j) (hk : j.kind = .print) :
    s.jobData k r = s.takeData k (jobIx k slot) j (word24 r.payload 1) (r.payload.drop 4) := by
  unfold State.jobData
  rw [dataTarget_of_print hs hn hslot hj hk]
  dsimp only
  rw [hj]

end

theorem jobData_of_no_target (h : s.dataTarget k r = none) : s.jobData k r = s.penalize k .creditViolation := by
  unfold State.jobData
  rw [h]

/-! ### The four cases (R57) -/

section

variable {i : JobId} {j : Job} {o : Nat} {data : List Byte}

theorem takeData_of_old (h : o + data.length ≤ j.received) : s.takeData k i j o data = s := if_pos h

variable (hnew : j.received < o + data.length)
include hnew

theorem takeData_of_violation (h : j.creditLimit < o + data.length ∨ 16777215 < o + data.length) :
    s.takeData k i j o data = s.penalize k .creditViolation := by
  unfold State.takeData
  rw [if_neg (by omega), if_pos (by omega)]

variable (hlimit : o + data.length ≤ j.creditLimit) (hmax : o + data.length ≤ 16777215)
include hlimit hmax

theorem takeData_of_gap (h : j.received < o) :
    s.takeData k i j o data = (s.endJob i .failedGap).settle j.device := by
  unfold State.takeData
  rw [if_neg (by omega), if_neg (by omega), if_pos h]

theorem takeData_of_next (h : o ≤ j.received) : s.takeData k i j o data = s.acceptData i j o data := by
  unfold State.takeData
  rw [if_neg (by omega), if_neg (by omega), if_neg (by omega)]

end

theorem jobData_taken (h : s.takes k kindJobData r = true) :
    exec (.jobData k r) s = .next ((s.modKiosk k KioskPort.takeGood).jobData k r) :=
  congrArg Host.Outcome.next (if_pos h)

/-- Settles O27. -/
theorem jobDataCases : Obligations.JobDataCases := by
  intro s k r ht
  rw [jobData_taken ht]
  intro G
  refine ⟨fun h => congrArg _ (jobData_of_no_target (dataTarget_of_form h)), fun slot hs hn hslot => ?_⟩
  intro i o n
  refine ⟨fun h => congrArg _ (jobData_of_no_target (dataTarget_of_no_print hs hn hslot h)), fun j hj hk => ?_⟩
  rw [jobData_of_print hs hn hslot hj hk]
  have hlength : (r.payload.drop 4).length = n := List.length_drop
  rw [← hlength]
  refine ⟨fun h => congrArg _ (takeData_of_old h), fun hnew h => congrArg _ (takeData_of_violation hnew h),
    fun ho hlimit hmax => congrArg _ (takeData_of_gap (by omega) hlimit hmax ho),
    fun ho hnew hlimit hmax => congrArg _ (takeData_of_next hnew hlimit hmax ho)⟩

/-! ### Where the bytes go (R38, R39, R58) -/

/-- R39: the block at offset `p` of a chain whose first `freed` blocks have left it. -/
def chainBlock (chain : List BlockId) (freed p : Nat) : Option BlockId := chain[p / 128 - freed]?

/-- Two offsets that lie in the chain share block and place only when they are one. -/
theorem chainBlock_inj {chain : List BlockId} {freed p q : Nat} {b : BlockId} (hnodup : chain.Nodup)
    (hp : freed * 128 ≤ p) (hq : freed * 128 ≤ q) (hpb : chainBlock chain freed p = some b)
    (hqb : chainBlock chain freed q = some b) (hmod : p % 128 = q % 128) : p = q := by
  have hlt : p / 128 - freed < chain.length := (List.getElem?_eq_some_iff.mp hpb).1
  have hix : p / 128 - freed = q / 128 - freed := (List.getElem?_inj hlt hnodup).mp (hpb.trans hqb.symm)
  omega

theorem writeData_cons {chain : List BlockId} {freed p : Nat} {b : BlockId} (s : State)
    (hb : chainBlock chain freed p = some b) (v : Byte) (rest : List Byte) :
    s.writeData chain freed p (v :: rest) = (s.writeBlock b p v).writeData chain freed (p + 1) rest := by
  have hb' : chain[p / 128 - freed]? = some b := hb
  rw [State.writeData, hb']

theorem writeData_frame (s : State) (chain : List BlockId) (freed p : Nat) (data : List Byte) :
    s.writeData chain freed p data = { s with mem := (s.writeData chain freed p data).mem } := by
  induction data generalizing s p with
  | nil => rfl
  | cons v rest ih =>
    rw [State.writeData, ih]
    split <;> rfl

/-- A byte of a block that no offset of the data names reads as before. -/
theorem writeData_readBlock_of_ne {chain : List BlockId} {freed p : Nat} {data : List Byte} {b : BlockId} {m : Nat}
    (hmem : MemoryInv s) (hm : m < 128)
    (h : ∀ n, n < data.length → chainBlock chain freed (p + n) = some b → (p + n) % 128 ≠ m) :
    (s.writeData chain freed p data).readBlock b m = s.readBlock b m := by
  induction data generalizing s p with
  | nil => rfl
  | cons v rest ih =>
    have hrest : ∀ n, n < rest.length → chainBlock chain freed (p + 1 + n) = some b → (p + 1 + n) % 128 ≠ m :=
      fun n hn hb => by
        rw [show p + 1 + n = p + (n + 1) by omega] at hb ⊢
        exact h (n + 1) (Nat.succ_lt_succ hn) hb
    cases hc : chainBlock chain freed p with
    | none =>
      have hc' : chain[p / 128 - freed]? = none := hc
      rw [State.writeData, hc']
      exact ih hmem hrest
    | some c =>
      rw [writeData_cons s hc, ih (writeBlock_wf s c p v hmem) hrest, writeBlock_readBlock s c b p m v hmem, if_neg]
      rintro ⟨rfl, hmod⟩
      refine h 0 (Nat.zero_lt_succ _) hc ?_
      rw [Nat.add_zero, ← hmod, Nat.mod_eq_of_lt hm]

/-- A byte of the data is read at its offset's block and place. -/
theorem writeData_readBlock {chain : List BlockId} {freed p : Nat} {data : List Byte} (hmem : MemoryInv s)
    (hnodup : chain.Nodup) (hp : freed * 128 ≤ p) (hend : p + data.length ≤ (freed + chain.length) * 128) {n : Nat}
    {b : BlockId} (hn : n < data.length) (hb : chainBlock chain freed (p + n) = some b) :
    (s.writeData chain freed p data).readBlock b ((p + n) % 128) = data.getD n 0#8 := by
  induction data generalizing s p n with
  | nil => exact absurd hn (Nat.not_lt_zero n)
  | cons v rest ih =>
    rw [List.length_cons] at hend
    have hlt : p / 128 - freed < chain.length := by omega
    obtain ⟨c, hc⟩ : ∃ c, chainBlock chain freed p = some c := ⟨_, List.getElem?_eq_getElem hlt⟩
    have hmem' : MemoryInv (s.writeBlock c p v) := writeBlock_wf s c p v hmem
    rw [writeData_cons s hc]
    cases n with
    | zero =>
      obtain rfl : c = b := Option.some.inj (hc.symm.trans hb)
      change ((s.writeBlock c p v).writeData chain freed (p + 1) rest).readBlock c (p % 128) = v
      rw [writeData_readBlock_of_ne hmem' (Nat.mod_lt _ (by decide)) (fun n _ hn' hmod => ?_),
        writeBlock_readBlock s c c p (p % 128) v hmem, if_pos ⟨rfl, Nat.mod_mod _ _⟩]
      have := chainBlock_inj hnodup (by omega) hp hn' hc hmod
      omega
    | succ n =>
      have hshift : p + (n + 1) = p + 1 + n := by omega
      rw [hshift] at hb ⊢
      rw [ih hmem' (by omega) (by omega) (Nat.lt_of_succ_lt_succ hn) hb]
      rfl

/-- Settles O28. -/
theorem jobDataIsStored : Obligations.JobDataIsStored := by
  refine ⟨fun s b c m n v hmem hm hn => ?_, fun s chain freed p data hmem hnodup hp hend => ⟨fun n b hn hb => ?_,
    fun b m hm h => ?_, writeData_frame s chain freed p data⟩⟩
  · rw [writeBlock_readBlock s b c m n v hmem, Nat.mod_eq_of_lt hm, Nat.mod_eq_of_lt hn]
  · exact writeData_readBlock hmem hnodup hp hend hn hb
  · exact writeData_readBlock_of_ne hmem hm h

/-! ### The start threshold (R60) -/

theorem meetsThreshold_iff (j : Job) (r : DeviceRecord) :
    j.meetsThreshold r = true ↔ r.startThreshold ≠ 0 ∧
      (r.startThreshold * 128 ≤ j.received ∨ (j.received = j.creditLimit ∧ 0 < j.creditLimit)) := by
  simp only [Job.meetsThreshold, Bool.and_eq_true, Bool.or_eq_true, decide_eq_true_eq,
    Nat.le_div_iff_mul_le (show 0 < 128 by decide)]

theorem testReady_of_met {j : Job} {r : DeviceRecord} (hk : j.kind = .print) (hs : j.state = .loading)
    (h : j.complete = true ∨ j.meetsThreshold r = true) : j.testReady r = { j with state := .ready } :=
  if_pos ⟨hk, hs, h⟩

theorem testReady_of_unmet {j : Job} {r : DeviceRecord}
    (h : j.kind = .scan ∨ j.state ≠ .loading ∨ (j.complete = false ∧ j.meetsThreshold r = false)) :
    j.testReady r = j := by
  refine if_neg ?_
  rintro ⟨hk, hs, hmet⟩
  rcases h with hscan | hstate | ⟨hc, hm⟩
  · rw [hk] at hscan
    cases hscan
  · exact hstate hs
  · rw [hc, hm] at hmet
    simp at hmet

/-- Settles O29. -/
theorem loadingBecomesReady : Obligations.LoadingBecomesReady := by
  intro j r
  refine ⟨fun hk hs h => testReady_of_met hk hs (by rwa [meetsThreshold_iff]), fun _ _ hc h => ?_, fun h => ?_⟩
  · refine testReady_of_unmet (.inr (.inr ⟨hc, Bool.eq_false_iff.mpr ?_⟩))
    rw [Ne, meetsThreshold_iff]
    omega
  · exact testReady_of_unmet (h.imp_right .inl)

end Sys2Proof.Machine
end

section
/-! Proofs about the job requests that name a slot: JOB_CLOSE, JOB_ABORT and JOB_QUERY. -/

namespace Sys2Proof.Machine

variable {s : State} {k : KioskId} {kind : Byte} {r : Request}

/-! ### What refuses a request that names a slot (R142) -/

theorem parseSlot_of_form {payload : List Byte} (h : payload.length ≠ 1 ∨ 3 ≤ byteAt payload 0) :
    parseSlot payload = none := by
  unfold parseSlot
  split
  · next h1 => exact toFin_eq_none (h.resolve_left (not_not_intro h1))
  · rfl

theorem parseSlot_byte (slot : SlotId) : parseSlot [byte slot.val] = some slot := by
  have hslot : byteAt [byte slot.val] 0 = slot.val := byte_toNat_of_le (by omega)
  rw [parseSlot, if_pos (by rfl), hslot, toFin_val]

theorem serveSlot_refused (f : State → SlotId → State) (ht : s.takes k kind r = true)
    (hr : (s.kiosk k).replyRoom = true)
    (h : (service r.channel ≠ servicePrint ∧ service r.channel ≠ serviceScan) ∨ r.payload.length ≠ 1 ∨
      3 ≤ byteAt r.payload 0) :
    s.serveSlot k kind r f = (s.modKiosk k KioskPort.takeGood).refuse k kind r .badRequest :=
  h.elim (serveSlot_service f ht hr) fun h => serveSlot_form f ht hr (parseSlot_of_form h)

theorem serveSlot_byte (f : State → SlotId → State) {slot : SlotId} (ht : s.takes k kind r = true)
    (hr : (s.kiosk k).replyRoom = true) (hs : service r.channel = servicePrint ∨ service r.channel = serviceScan)
    (hp : r.payload = [byte slot.val]) : s.serveSlot k kind r f = f (s.modKiosk k KioskPort.takeGood) slot :=
  serveSlot_taken f ht hr hs (by rw [hp, parseSlot_byte])

/-- R150: the SLOT that a refusal of a JOB_CLOSE carries. -/
theorem refuse_close {slot : SlotId} {status : Status} (hp : r.payload = [byte slot.val]) :
    s.refuse k kindJobClose r status = s.reply k kindJobClose r status [byte slot.val, 0#8, 0#8, 0#8] := by
  have hslot : slotAsked r.payload = byte slot.val := by
    rw [hp]
    rfl
  rw [← hslot]
  rfl

/-! ### JOB_CLOSE (R62, R50) -/

section

variable {slot : SlotId} {j : Job} (hj : s.job (jobIx k slot) = some j)
include hj

theorem closeJob_of_other (h : j.kind = .scan ∨ service r.channel ≠ servicePrint) :
    s.closeJob k r slot = s.refuse k kindJobClose r .badState := by
  unfold State.closeJob
  rw [hj]
  exact if_pos h

variable (hk : j.kind = .print) (hs : service r.channel = servicePrint)
include hk hs

theorem closeJob_of_print :
    s.closeJob k r slot =
      if j.complete then s.reply k kindJobClose r .ok (byte slot.val :: be24 j.declaredLength)
      else if j.declaredLength = 0 then
        (s.reply k kindJobClose r .ok (byte slot.val :: be24 j.received)).finishClose (jobIx k slot) j
      else s.refuse k kindJobClose r .badState := by
  have hserved : ¬ (j.kind = .scan ∨ service r.channel ≠ servicePrint) := by
    rw [hk, hs]
    decide
  unfold State.closeJob
  rw [hj]
  exact if_neg hserved

end

/-- R50: the chain of a stream job closed at RECEIVED, its blocks returned as the rule says. -/
theorem closeChain_of_live {i : JobId} {j : Job} (hj : s.job i = some j) :
    s.closeChain i =
      let t := (s.setJob i (some j.closed)).returnBlocks (j.allocation.drop j.keptAtClose)
      if j.sent = j.received then t.freeHead i else t := by
  unfold State.closeChain
  rw [hj]

/-- Settles O30. -/
theorem jobCloseCases : Obligations.JobCloseCases := by
  refine ⟨fun s k r ht hr h => congrArg Host.Outcome.next (serveSlot_refused _ ht hr h),
    fun s k r slot ht hr hs hp => ?_⟩
  have hserved : exec (.jobClose k r) s = .next ((s.modKiosk k KioskPort.takeGood).closeJob k r slot) :=
    congrArg Host.Outcome.next (serveSlot_byte _ ht hr hs hp)
  rw [hserved]
  intro G i
  refine ⟨fun hj => ?_, fun j hj => ⟨fun h => ?_, fun hk hp' hc => ?_, fun hk hp' hc hd => ?_,
    fun hk hp' hc hd => ?_⟩⟩
  · refine congrArg _ (Eq.trans ?_ (refuse_close hp))
    unfold State.closeJob
    rw [hj]
  · rw [closeJob_of_other hj h, refuse_close hp]
  · rw [closeJob_of_print hj hk hp', if_pos hc]
  · rw [closeJob_of_print hj hk hp', if_neg (by simp [hc]), if_neg hd, refuse_close hp]
  · rw [closeJob_of_print hj hk hp', if_neg (by simp [hc]), if_pos hd]
    unfold State.finishClose
    rw [closeChain_of_live (s := G.reply k kindJobClose r .ok (byte slot.val :: be24 j.received)) (j := j) hj]
    rfl

/-! ### JOB_ABORT (R9, R7) -/

theorem abortJob_of_refused {slot : SlotId} {j : Job} (hj : s.job (jobIx k slot) = some j)
    (h : service r.channel ≠ j.kind.service ∨ j.held ≠ none) :
    s.abortJob k r slot = s.refuse k kindJobAbort r .badState := by
  unfold State.abortJob
  rw [hj]
  dsimp only
  split
  · rfl
  · next hs => exact if_pos (Option.isSome_iff_ne_none.mpr (h.resolve_left hs))

section

variable {slot : SlotId} {j : Job} (hj : s.job (jobIx k slot) = some j) (hs : service r.channel = j.kind.service)
  (hh : j.held = none)
include hj hs hh

theorem abortJob_of_live :
    s.abortJob k r slot =
      if j.state = .active then
        match j.kind with
        | .print => s.reply k kindJobAbort r .ok [byte slot.val, 0#8]
        | .scan =>
          ((s.reply k kindJobAbort r .ok [byte slot.val, 1#8]).decideEnd (jobIx k slot) .aborted).settle j.device
      else (s.reply k kindJobAbort r .ok [byte slot.val, 1#8]).endJob (jobIx k slot) .aborted := by
  unfold State.abortJob
  rw [hj]
  dsimp only
  rw [if_neg (not_not_intro hs), hh]
  rfl

end

theorem abortJob_of_active_scan {slot : SlotId} {j : Job} (hj : s.job (jobIx k slot) = some j)
    (hs : service r.channel = serviceScan) (hk : j.kind = .scan) (hh : j.held = none) (ha : j.state = .active) :
    s.abortJob k r slot =
      ((s.reply k kindJobAbort r .ok [byte slot.val, 1#8]).decideEnd (jobIx k slot) .aborted).settle j.device := by
  rw [abortJob_of_live hj (by rw [hs, hk]; rfl) hh, if_pos ha, hk]

theorem jobKiosk_jobIx (k : KioskId) (slot : SlotId) : jobKiosk (jobIx k slot) = k := (jobIx_inj rfl).1

theorem jobSlot_jobIx (k : KioskId) (slot : SlotId) : jobSlot (jobIx k slot) = slot := (jobIx_inj rfl).2

theorem frameOnLine_iff (s : State) (i : JobId) :
    s.frameOnLine i = true ↔ (s.kiosk (jobKiosk i)).line = .frame ∧
      (s.kiosk (jobKiosk i)).source = .scan (jobSlot i) := by
  simp [State.frameOnLine]

/-- R7: how the ending of a live job is decided, when no ending is held. -/
theorem decideEnd_of_live {i : JobId} {j : Job} (hj : s.job i = some j) (hh : j.held = none) (reason : EndReason) :
    s.decideEnd i reason =
      if j.kind = .scan ∧ j.state = .active ∧ s.frameOnLine i then
        (s.modDevice j.device (DevicePort.letScanGo reason)).setJob i
          (some { j with held := some reason, paused := false })
      else s.endJob i reason := by
  unfold State.decideEnd
  rw [hj]
  dsimp only
  rw [hh]
  rfl

/-- A REPLY and the taking of its request leave the line of the port. -/
theorem reply_line (s : State) (k : KioskId) (kind : Byte) (r : Request) (status : Status) (fields : List Byte) :
    let A := (s.modKiosk k KioskPort.takeGood).reply k kind r status fields
    (A.kiosk k).line = (s.kiosk k).line ∧ (A.kiosk k).source = (s.kiosk k).source := by
  have hport : ((s.modKiosk k KioskPort.takeGood).reply k kind r status fields).kiosk k =
      { (s.kiosk k).takeGood with
        control := (s.kiosk k).takeGood.control ++ [.reply r.channel r.tag kind status fields .nothing] } := by
    unfold State.reply State.handControl
    rw [modKiosk_modKiosk, modKiosk_kiosk_self]
  intro A
  rw [hport]
  exact ⟨rfl, rfl⟩

/-- Settles O31. -/
theorem jobAbortCases : Obligations.JobAbortCases := by
  refine ⟨fun s k r ht hr h => congrArg Host.Outcome.next (serveSlot_refused _ ht hr h),
    fun s k r slot ht hr hs hp => ?_⟩
  have hserved : exec (.jobAbort k r) s = .next ((s.modKiosk k KioskPort.takeGood).abortJob k r slot) :=
    congrArg Host.Outcome.next (serveSlot_byte _ ht hr hs hp)
  rw [hserved]
  intro G i
  refine ⟨fun hj => ?_, fun j hj => ⟨fun h => ?_, fun hprint hk hh ha => ?_, fun hscan hk hh ha => ?_,
    fun h hh ha => ?_⟩⟩
  · unfold State.abortJob
    rw [hj]
    rfl
  · refine congrArg _ (abortJob_of_refused hj ?_)
    rcases h with ⟨hsv, hk⟩ | ⟨hsv, hk⟩ | hh
    · exact .inl (by rw [hsv, hk]; decide)
    · exact .inl (by rw [hsv, hk]; decide)
    · exact .inr hh
  · rw [abortJob_of_live hj (by rw [hprint, hk]; rfl) hh, if_pos ha, hk]
  · rw [abortJob_of_active_scan hj hscan hk hh ha]
    refine congrArg (fun t : State => Host.Outcome.next (t.settle j.device)) ?_
    rw [decideEnd_of_live (s := G.reply k kindJobAbort r .ok [byte slot.val, 1#8]) hj hh]
    refine if_congr ?_ rfl rfl
    obtain ⟨hline, hsource⟩ := reply_line s k kindJobAbort r .ok [byte slot.val, 1#8]
    rw [frameOnLine_iff, jobKiosk_jobIx, jobSlot_jobIx, hline, hsource]
    simp [hk, ha]
  · have hsv : service r.channel = j.kind.service := by
      rcases h with ⟨hsv, hk⟩ | ⟨hsv, hk⟩ <;> rw [hsv, hk] <;> rfl
    rw [abortJob_of_live hj hsv hh, if_neg ha]

/-! ### JOB_QUERY (R10) -/

theorem freeBytes_length (s : State) (n : Nat) : (s.freeBytes n).length = n := by
  simp [State.freeBytes]

/-- Settles O32: what no rule gives is the free bytes that the report draws. -/
theorem jobQueryReports : Obligations.JobQueryReports := by
  refine ⟨fun s k r ht hr h => congrArg Host.Outcome.next (serveSlot_refused _ ht hr h),
    fun s k r slot ht hr hs hp => ?_⟩
  have hserved : exec (.jobQuery k r) s = .next ((s.modKiosk k KioskPort.takeGood).queryJob k r slot) :=
    congrArg Host.Outcome.next (serveSlot_byte _ ht hr hs hp)
  rw [hserved]
  intro G i
  refine ⟨fun hj => ⟨G.freeBytes 9, (Config.freeByte (G.freeIndex + 9)).toNat % 32, freeBytes_length G 9,
    Nat.mod_lt _ (by decide), ?_⟩, fun j hj => ?_⟩
  · unfold State.queryJob
    rw [hj]
    rfl
  · have hquery : G.queryJob k r slot =
        (G.reply k kindJobQuery r .ok (queryFields G slot i j)).advanceFree 4 := by
      unfold State.queryJob
      rw [hj]
    intro bit state
    have hstate : byte j.state.code = state := by
      show byte j.state.code = match j.state with | .loading => 1#8 | .ready => 2#8 | .active => 3#8
      cases j.state <;> rfl
    rw [hquery]
    refine ⟨fun hk => ⟨(Config.freeByte (G.freeIndex + 3)).getLsbD 0, (Config.freeByte (G.freeIndex + 3)).getLsbD 1,
      ?_⟩, fun hk => ⟨(Config.freeByte (G.freeIndex + 3)).getLsbD 0, G.freeBytes 3, freeBytes_length G 3, ?_⟩⟩
    · unfold queryFields Job.completeBit Job.truncatedBit Job.abortBit
      rw [hstate, hk]
      rfl
    · unfold queryFields Job.completeBit Job.truncatedBit Job.abortBit
      rw [hstate, hk]
      rfl

end Sys2Proof.Machine
end

section
/-! Proofs about the spool's grants and the tight-spool condition (chapter 3), and about CREDIT entries (section 8.2). -/

namespace Sys2Proof.Machine

variable {s : State}

/-! ### The tight-spool condition (R42, R43) -/

theorem evalTight_frame (s : State) :
    s.evalTight = { s with kiosks := s.evalTight.kiosks, tight := s.evalTight.tight, flags := s.evalTight.flags } := by
  have hraise : ∀ b, (s.setTight b).raise .spoolEvent =
      { s with kiosks := ((s.setTight b).raise .spoolEvent).kiosks, tight := ((s.setTight b).raise .spoolEvent).tight,
               flags := ((s.setTight b).raise .spoolEvent).flags } := fun b => by
    rw [raise_frame]
    rfl
  unfold State.evalTight
  dsimp only
  split_ifs
  · exact hraise false
  · rfl
  · rfl
  · exact hraise true
  · rfl
  · rfl

@[simp] theorem evalTight_free (s : State) : s.evalTight.free = s.free := by rw [evalTight_frame]

@[simp] theorem evalTight_grantPointer (s : State) : s.evalTight.grantPointer = s.grantPointer := by
  rw [evalTight_frame]

@[simp] theorem evalTight_mem (s : State) : s.evalTight.mem = s.mem := by rw [evalTight_frame]

@[simp] theorem evalTight_devices (s : State) : s.evalTight.devices = s.devices := by rw [evalTight_frame]

theorem evalTight_entry (h : s.tight = false) (hlow : s.free.length < s.spoolRecord.tightSet * 64) :
    s.evalTight = if s.spoolRecord.onEntry then (s.setTight true).raise .spoolEvent else s.setTight true := by
  unfold State.evalTight
  rw [if_neg (by simp [h])]
  exact if_pos hlow

theorem evalTight_loose (h : s.tight = false) (hhigh : s.spoolRecord.tightSet * 64 ≤ s.free.length) :
    s.evalTight = s := by
  unfold State.evalTight
  rw [if_neg (by simp [h]), if_neg (Nat.not_lt_of_le hhigh)]

theorem evalTight_exit (h : s.tight = true) (hhigh : s.spoolRecord.effectiveClear * 64 ≤ s.free.length) :
    s.evalTight = if s.spoolRecord.onExit then (s.setTight false).raise .spoolEvent else s.setTight false := by
  unfold State.evalTight
  rw [if_pos h]
  exact if_pos hhigh

theorem evalTight_stays (h : s.tight = true) (hlow : s.free.length < s.spoolRecord.effectiveClear * 64) :
    s.evalTight = s := by
  unfold State.evalTight
  rw [if_pos h, if_neg (Nat.not_le_of_lt hlow)]

/-! ### CREDIT entries (R127) -/

theorem any_isCreditFor_iff (slot : SlotId) (control : List ControlEntry) :
    control.any (ControlEntry.isCreditFor slot) = true ↔ ∃ c l, ControlEntry.credit c slot l ∈ control := by
  rw [List.any_eq_true]
  constructor
  · rintro ⟨e, hmem, he⟩
    cases e with
    | credit c t l =>
      obtain rfl : t = slot := eq_of_beq he
      exact ⟨c, l, hmem⟩
    | reply => cases he
    | jobEnd => cases he
    | notice => cases he
  · rintro ⟨c, l, hmem⟩
    exact ⟨_, hmem, beq_self_eq_true slot⟩

/-- R127: the first CREDIT of the slot takes the limit where it stands. -/
theorem updateCredit_append {slot : SlotId} {limit : Nat} {a : List ControlEntry}
    (ha : ∀ c l, ControlEntry.credit c slot l ∉ a) (c : Byte) (l : Nat) (b : List ControlEntry) :
    updateCredit slot limit (a ++ .credit c slot l :: b) = a ++ .credit c slot limit :: b := by
  induction a with
  | nil => exact if_pos rfl
  | cons e rest ih =>
    have hrest := ih fun c l hmem => ha c l (List.mem_cons_of_mem _ hmem)
    rw [List.cons_append, List.cons_append]
    cases e with
    | credit c' t l' =>
      have ht : t ≠ slot := fun e => ha c' l' (e ▸ List.mem_cons_self)
      rw [updateCredit, if_neg ht, hrest]
    | reply => exact congrArg (_ :: ·) hrest
    | jobEnd => exact congrArg (_ :: ·) hrest
    | notice => exact congrArg (_ :: ·) hrest

theorem handCredit_of_none {k : KioskId} {slot : SlotId} (h : ∀ c l, ControlEntry.credit c slot l ∉ (s.kiosk k).control)
    (ch : Byte) (limit : Nat) :
    s.handCredit k ch slot limit =
      s.setKiosk k { s.kiosk k with control := (s.kiosk k).control ++ [.credit ch slot limit] } := by
  have hnone : (s.kiosk k).control.any (ControlEntry.isCreditFor slot) = false :=
    Bool.eq_false_iff.mpr fun hany => by
      obtain ⟨c, l, hmem⟩ := (any_isCreditFor_iff slot _).mp hany
      exact h c l hmem
  exact congrArg (s.setKiosk k) (if_neg (by simp [hnone]))

theorem handCredit_of_waiting {k : KioskId} {slot : SlotId} {a b : List ControlEntry} {c : Byte} {l : Nat}
    (hc : (s.kiosk k).control = a ++ .credit c slot l :: b) (ha : ∀ c l, ControlEntry.credit c slot l ∉ a) (ch : Byte)
    (limit : Nat) :
    s.handCredit k ch slot limit = s.setKiosk k { s.kiosk k with control := a ++ .credit c slot limit :: b } := by
  have hany : (s.kiosk k).control.any (ControlEntry.isCreditFor slot) = true :=
    (any_isCreditFor_iff slot _).mpr ⟨c, l, by simp [hc]⟩
  refine congrArg (s.setKiosk k) ((if_pos hany).trans ?_)
  rw [hc, updateCredit_append ha]

/-! ### Which record qualifies (R40, R44, R45) -/

theorem holdingOf_eq_sum (s : State) (k : KioskId) :
    s.holdingOf k = ((List.finRange 3).map fun t => chainLength (s.job (jobIx k t))).sum := by
  have hslots : List.finRange 3 = [0, 1, 2] := by decide
  rw [hslots]
  simp [State.holdingOf, Nat.add_assoc]

theorem qualifies_iff (s : State) (i : JobId) :
    s.qualifies i = true ↔ ∃ j, s.job i = some j ∧ j.kind = .print ∧ j.complete = false ∧
      j.allocation.length < s.window ∧ s.holdingOf (jobKiosk i) < (s.kiosk (jobKiosk i)).quota ∧
      j.top < j.topLimit := by
  unfold State.qualifies
  cases s.job i with
  | none => simp
  | some j => simp [and_assoc]

/-! ### The rotation after GRANT_POINTER (R45) -/

theorem recordAfter_surj (p i : JobId) : ∃ n < 48, recordAfter p (n + 1) = i := by
  refine ⟨(i.val + 47 - p.val) % 48, Nat.mod_lt _ (by decide), Fin.ext ?_⟩
  show (p.val + ((i.val + 47 - p.val) % 48 + 1)) % 48 = i.val
  omega

theorem nextQualifying_eq_none_iff (s : State) : s.nextQualifying = none ↔ ∀ i, s.qualifies i = false := by
  unfold State.nextQualifying
  rw [List.find?_eq_none]
  constructor
  · intro h i
    obtain ⟨n, hn, rfl⟩ := recordAfter_surj s.grantPointer i
    exact Bool.eq_false_iff.mpr (h _ (List.mem_map_of_mem (List.mem_range.mpr hn)))
  · intro h i _
    simp [h i]

theorem nextQualifying_eq_some_iff (s : State) (i : JobId) :
    s.nextQualifying = some i ↔ ∃ n, 1 ≤ n ∧ n ≤ 48 ∧ i.val = (s.grantPointer.val + n) % 48 ∧ s.qualifies i = true ∧
      ∀ (m : Nat) (x : JobId), 1 ≤ m → m < n → x.val = (s.grantPointer.val + m) % 48 → s.qualifies x = false := by
  unfold State.nextQualifying
  rw [List.find?_map, Option.map_eq_some_iff]
  simp only [List.find?_range_eq_some]
  constructor
  · rintro ⟨n, ⟨hq, hn, hbefore⟩, rfl⟩
    refine ⟨n + 1, Nat.le_add_left _ _, List.mem_range.mp hn, rfl, hq, fun m x hm hlt hx => ?_⟩
    have hrecord : recordAfter s.grantPointer (m - 1 + 1) = x := Fin.ext (by rw [hx, Nat.sub_add_cancel hm]; rfl)
    have := hbefore (m - 1) (by omega)
    simpa [hrecord] using this
  · rintro ⟨n, hn, hn', hi, hq, hbefore⟩
    have hrecord : recordAfter s.grantPointer (n - 1 + 1) = i := Fin.ext (by rw [hi, Nat.sub_add_cancel hn]; rfl)
    refine ⟨n - 1, ⟨by simpa [hrecord] using hq, List.mem_range.mpr (by omega), fun m hm => ?_⟩, hrecord⟩
    have := hbefore (m + 1) (recordAfter s.grantPointer (m + 1)) (Nat.le_add_left _ _) (by omega) rfl
    simp [this]

/-! ### One grant (R45, R46, R48) -/

theorem limitNow_lend (j : Job) (b : BlockId) :
    (j.granted b).creditLimit =
      if j.declaredLength = 0 then min 16777215 ((j.freedBlocks + j.allocation.length + 1) * 128)
      else min j.declaredLength ((j.freedBlocks + j.allocation.length + 1) * 128) := by
  have htop : (j.lend b).top = j.freedBlocks + j.allocation.length + 1 := by
    simp [Job.top, Job.lend, Nat.add_assoc]
  show (j.lend b).limitNow = _
  rw [Job.limitNow, htop]
  rfl

theorem grantTo_of_free {i : JobId} {j : Job} {b : BlockId} {rest : List BlockId} (hf : s.free = b :: rest)
    (hj : s.job i = some j) :
    s.grantTo i = ((((s.setFree rest).setJob i (some (j.granted b))).creditRise i j.creditLimit
      (j.granted b).creditLimit j.channel).setGrantPointer i).evalTight := by
  unfold State.grantTo
  rw [hf, hj]

theorem creditRise_frame (s : State) (i : JobId) (before after : Nat) (ch : Byte) :
    s.creditRise i before after ch = { s with kiosks := (s.creditRise i before after ch).kiosks } := by
  unfold State.creditRise
  split <;> rfl

/-- What a grant leaves in the state besides the ports and the tight-spool condition. -/
theorem grantTo_fields {i : JobId} {j : Job} {b : BlockId} {rest : List BlockId} (hf : s.free = b :: rest)
    (hj : s.job i = some j) :
    (s.grantTo i).jobs = (s.setJob i (some (j.granted b))).jobs ∧ (s.grantTo i).free = rest ∧
      (s.grantTo i).grantPointer = i ∧ (s.grantTo i).mem = s.mem ∧ (s.grantTo i).devices = s.devices := by
  rw [grantTo_of_free hf hj, evalTight_frame, creditRise_frame]
  exact ⟨rfl, rfl, rfl, rfl, rfl⟩

/-! ### The grant pass (R45) -/

theorem grantPass_of_done (h : s.nextQualifying = none ∨ s.free = []) : s.grantPass = s := by
  unfold State.grantPass
  cases hf : s.free with
  | nil => rfl
  | cons b rest =>
    have hn := h.resolve_right (by rw [hf]; exact List.cons_ne_nil _ _)
    rw [List.length_cons, State.grantLoop, hn]

theorem grantLoop_grantTo {i : JobId} (hi : s.nextQualifying = some i) (n : Nat) :
    s.grantLoop (n + 1) = (s.grantTo i).grantLoop n := by
  rw [State.grantLoop, hi]

/-- A grant to the next qualifying record takes one block. -/
theorem grantTo_length {i : JobId} (hi : s.nextQualifying = some i) {b : BlockId} {rest : List BlockId}
    (hf : s.free = b :: rest) : (s.grantTo i).free = rest := by
  obtain ⟨j, hj, -⟩ := (qualifies_iff s i).mp (nextQualifying_qualifies s hi)
  exact (grantTo_fields hf hj).2.1

theorem grantPass_of_next {i : JobId} (hi : s.nextQualifying = some i) (hf : s.free ≠ []) :
    s.grantPass = (s.grantTo i).grantPass := by
  obtain ⟨b, rest, hf⟩ := List.exists_cons_of_ne_nil hf
  unfold State.grantPass
  rw [hf, List.length_cons, grantLoop_grantTo hi, grantTo_length hi hf]

theorem grantPass_exhausts (s : State) : s.grantPass.nextQualifying = none ∨ s.grantPass.free = [] := by
  cases hi : s.nextQualifying with
  | none =>
    rw [grantPass_of_done (.inl hi)]
    exact .inl hi
  | some i =>
    cases hf : s.free with
    | nil =>
      rw [grantPass_of_done (.inr hf)]
      exact .inr hf
    | cons b rest =>
      have hless : (s.grantTo i).free.length < s.free.length := by
        rw [grantTo_length hi hf, hf]
        exact Nat.lt_succ_self _
      rw [grantPass_of_next hi (by rw [hf]; exact List.cons_ne_nil _ _)]
      exact grantPass_exhausts _
termination_by s.free.length

/-- Settles O33. -/
theorem grantsAndTightSpool : Obligations.GrantsAndTightSpool := by
  refine ⟨fun s i j b rest hf hj => ?_, fun s k ch slot limit => ⟨fun h => handCredit_of_none h ch limit,
    fun a c l b hc ha => handCredit_of_waiting hc ha ch limit⟩, fun s i => ?_,
    fun s => ⟨nextQualifying_eq_none_iff s, nextQualifying_eq_some_iff s⟩,
    fun s => ⟨grantPass_of_done, fun i hi hf => grantPass_of_next hi hf, grantPass_exhausts s⟩,
    fun s => ⟨evalTight_entry, evalTight_loose, evalTight_exit, evalTight_stays⟩⟩
  · intro top limit t
    have hlimit : (j.granted b).creditLimit = limit := limitNow_lend j b
    have hgranted : j.granted b = { j with allocation := j.allocation ++ [b], creditLimit := limit } := by
      rw [← hlimit]
      rfl
    obtain ⟨hjobs, hfree, hpointer, hmem, hdevices⟩ := grantTo_fields hf hj
    have hjob : ∀ n, t.job n = if n = i then some (j.granted b) else s.job n := fun n => by
      rw [← setJob_job]
      unfold State.job
      rw [hjobs]
    refine ⟨?_, fun n hn => ?_, hfree, hpointer, hmem, hdevices, ?_⟩
    · rw [hjob, if_pos rfl, hgranted]
    · rw [hjob, if_neg hn]
    · rw [← hgranted, ← hlimit]
      exact grantTo_of_free hf hj
  · rw [qualifies_iff, holdingOf_eq_sum]
    rfl

end Sys2Proof.Machine
end

section
/-! Proofs about the endings of jobs (sections 1.3, 3.6, 4.6, 5.6, 8.2). -/

namespace Sys2Proof.Machine

variable {s : State}

/-! ### What an ending leaves on the device side (R8, R70, R71, R85) -/

theorem countAtEnd_eq (j : Job) (p : DevicePort) :
    j.countAtEnd p = if j.kind = .print ∧ j.state = .active ∧ p.holding ≠ none then j.sent - 1 else j.sent := by
  cases hk : j.kind <;> cases hs : j.state <;> cases hh : p.holding <;> simp [Job.countAtEnd, hk, hs, hh]

theorem owesNoBreak_eq_false_iff (reason : EndReason) :
    reason.owesNoBreak = false ↔ reason ≠ .done ∧ reason ≠ .failedDeviceReset := by
  cases reason <;> simp [EndReason.owesNoBreak]

theorem stopPrint_eq (reason : EndReason) (p : DevicePort) :
    p.stopPrint reason = { p with
      holding := none, underrun := .stopped, faultLimit := .stopped,
      brk := if p.record.resetBreak = true ∧ reason ≠ .done ∧ reason ≠ .failedDeviceReset then .owed else p.brk } := by
  have howed : (p.record.resetBreak && !reason.owesNoBreak) = true ↔
      p.record.resetBreak = true ∧ reason ≠ .done ∧ reason ≠ .failedDeviceReset := by
    rw [Bool.and_eq_true, Bool.not_eq_true', owesNoBreak_eq_false_iff]
  unfold DevicePort.stopPrint
  simp only [howed]

theorem dropJob_queue (i : JobId) (j : Job) (reason : EndReason) (p : DevicePort) :
    (p.dropJob i j reason).queue = p.queue.filter fun x => x != i := by
  unfold DevicePort.dropJob
  dsimp only
  split
  · cases j.kind <;> rfl
  · rfl

theorem dropJob_of_not_active {i : JobId} {j : Job} (h : j.state ≠ .active) (reason : EndReason) (p : DevicePort) :
    p.dropJob i j reason = { p with queue := p.queue.filter fun x => x != i } := if_neg h

theorem dropJob_of_active {i : JobId} {j : Job} (h : j.state = .active) (reason : EndReason) (p : DevicePort) :
    p.dropJob i j reason = DevicePort.stopWork j.kind reason { p with queue := p.queue.filter fun x => x != i } :=
  if_pos h

/-! ### Blocks returned, and passes that change no device (R38, R53) -/

theorem returnBlocks_cons (s : State) (b : BlockId) (rest : List BlockId) :
    s.returnBlocks (b :: rest) = ((s.setFree (s.free ++ [b])).evalTight).returnBlocks rest := rfl

@[simp] theorem returnBlocks_devices (s : State) (bs : List BlockId) : (s.returnBlocks bs).devices = s.devices := by
  induction bs generalizing s with
  | nil => rfl
  | cons b rest ih => rw [returnBlocks_cons, ih, evalTight_devices, setFree_devices]

/-- With the spool not tight, and enough blocks free to stay so, blocks just join the free list. -/
theorem returnBlocks_of_loose (ht : s.tight = false) (hf : s.spoolRecord.tightSet * 64 ≤ s.free.length)
    (bs : List BlockId) : s.returnBlocks bs = s.setFree (s.free ++ bs) := by
  induction bs generalizing s with
  | nil => rw [List.append_nil]; rfl
  | cons b rest ih =>
    have hgrown : s.spoolRecord.tightSet * 64 ≤ (s.setFree (s.free ++ [b])).free.length := by
      rw [show (s.setFree (s.free ++ [b])).free = s.free ++ [b] from rfl, List.length_append]
      omega
    rw [returnBlocks_cons, evalTight_loose (s := s.setFree (s.free ++ [b])) ht hgrown,
      ih (s := s.setFree (s.free ++ [b])) ht hgrown]
    show (s.setFree (s.free ++ [b])).setFree (s.free ++ [b] ++ rest) = _
    rw [List.append_assoc]
    rfl

@[simp] theorem grantTo_devices (s : State) (i : JobId) : (s.grantTo i).devices = s.devices := by
  unfold State.grantTo
  split
  · rw [evalTight_devices, setGrantPointer_devices, creditRise_frame]
    rfl
  · rfl

@[simp] theorem grantPass_devices (s : State) : s.grantPass.devices = s.devices := by
  unfold State.grantPass
  generalize s.free.length = n
  induction n generalizing s with
  | zero => rfl
  | succ n ih =>
    unfold State.grantLoop
    split
    · rw [ih, grantTo_devices]
    · rfl

/-- With no job live no record qualifies, and a pass does nothing. -/
theorem grantPass_of_no_jobs (h : ∀ i, s.job i = none) : s.grantPass = s := by
  refine grantPass_of_done (.inl ((nextQualifying_eq_none_iff s).mpr fun i => Bool.eq_false_iff.mpr fun hq => ?_))
  obtain ⟨j, hj, -⟩ := (qualifies_iff s i).mp hq
  rw [h i] at hj
  cases hj

/-! ### The ending of a job (R5, R6, R128) -/

theorem handJobEnd_eq (s : State) (k : KioskId) (ch : Byte) (slot : SlotId) (reason : EndReason) (count : Nat)
    (le : Bool) :
    s.handJobEnd k ch slot reason count le = s.setKiosk k { s.kiosk k with control :=
      ((s.kiosk k).control.filter fun e => match e with | .credit _ t _ => t != slot | _ => true) ++
        [.jobEnd ch slot reason count le] } := by
  have hfilter : (fun e : ControlEntry => match e with | .credit _ t _ => t != slot | _ => true) =
      fun e => !e.isCreditFor slot := by
    funext e
    cases e <;> rfl
  rw [hfilter]
  rfl

theorem endJob_of_free {i : JobId} (h : s.job i = none) (reason : EndReason) : s.endJob i reason = s := by
  unfold State.endJob
  rw [h]

theorem endJob_of_live {i : JobId} {j : Job} (hj : s.job i = some j) (reason : EndReason) :
    s.endJob i reason =
      let T := ((s.setDevice j.device ((s.device j.device).dropJob i j reason)).setJob i none).returnBlocks j.allocation
      (if reason = .ownerLost then T
        else T.handJobEnd (jobKiosk i) j.channel (jobSlot i) reason (j.countAtEnd (s.device j.device))
          j.lineErrors).grantPass := by
  unfold State.endJob
  rw [hj]
  rfl

theorem endJob_devices {i : JobId} {j : Job} (hj : s.job i = some j) (reason : EndReason) :
    (s.endJob i reason).devices = (s.setDevice j.device ((s.device j.device).dropJob i j reason)).devices := by
  rw [endJob_of_live hj]
  dsimp only
  rw [grantPass_devices]
  split
  · rw [returnBlocks_devices, setJob_devices]
  · exact returnBlocks_devices _ _

theorem endJob_queue {i : JobId} {j : Job} (hj : s.job i = some j) (reason : EndReason) :
    ((s.endJob i reason).device j.device).queue = (s.device j.device).queue.filter fun x => x != i := by
  rw [table_of_devices (endJob_devices hj reason), setDevice_device_self, dropJob_queue]

theorem endJob_alone {i : JobId} {j : Job} (hj : s.job i = some j) (hothers : ∀ n, n ≠ i → s.job n = none)
    (ht : s.tight = false) (hf : s.spoolRecord.tightSet * 64 ≤ s.free.length) (reason : EndReason) :
    s.endJob i reason =
      let T := ((s.setDevice j.device ((s.device j.device).dropJob i j reason)).setJob i none).setFree
        (s.free ++ j.allocation)
      if reason = .ownerLost then T
      else T.handJobEnd (jobKiosk i) j.channel (jobSlot i) reason (j.countAtEnd (s.device j.device)) j.lineErrors := by
  have hjobs : ∀ n,
      ((s.setDevice j.device ((s.device j.device).dropJob i j reason)).setJob i none).job n = none := fun n => by
    rw [setJob_job]
    split
    · rfl
    · next hn => exact hothers n hn
  rw [endJob_of_live hj, returnBlocks_of_loose
    (s := (s.setDevice j.device ((s.device j.device).dropJob i j reason)).setJob i none) ht hf]
  dsimp only
  refine grantPass_of_no_jobs fun n => ?_
  split
  · exact hjobs n
  · exact hjobs n

theorem decideEnd_of_free {i : JobId} (h : s.job i = none) (reason : EndReason) : s.decideEnd i reason = s := by
  unfold State.decideEnd
  rw [h]

theorem decideEnd_of_held {i : JobId} {j : Job} (hj : s.job i = some j) (hh : j.held ≠ none) (reason : EndReason) :
    s.decideEnd i reason = s := by
  unfold State.decideEnd
  rw [hj]
  exact if_pos (Option.isSome_iff_ne_none.mpr hh)

/-- Settles O34. -/
theorem jobEndings : Obligations.JobEndings := by
  refine ⟨fun s i j reason hj => ⟨endJob_free s i reason, endJob_queue hj reason⟩, fun s i j reason hj ho ht hf => ?_,
    fun s i j reason hj => ?_, fun s b rest => ⟨rfl, returnBlocks_cons s b rest⟩, handJobEnd_eq,
    fun p i j reason => ⟨fun h => dropJob_of_not_active h reason p, fun h hk => ?_, fun h hk => ?_, rfl⟩,
    fun s i reason => ⟨fun h => decideEnd_of_free h reason, fun j hj => ⟨fun hh => decideEnd_of_held hj hh reason,
      fun hh hline => ?_, fun hh hline => ?_⟩⟩⟩
  · rw [endJob_alone hj ho ht hf, countAtEnd_eq]
  · rw [endJob_of_live hj, countAtEnd_eq]
  · rw [dropJob_of_active h, hk]
    exact stopPrint_eq reason _
  · rw [dropJob_of_active h, hk]
    rfl
  · rw [decideEnd_of_live hj hh, if_pos]
    · rfl
    · rwa [frameOnLine_iff]
  · rw [decideEnd_of_live hj hh, if_neg]
    rwa [frameOnLine_iff]

end Sys2Proof.Machine
end

section
/-! Proofs about the lock of a port and the table reads (sections 11.1, 11.3). -/

namespace Sys2Proof.Machine

variable {s : State} {k : KioskId} {r : Request}

/-! ### UNLOCK and LOCK (R163) -/

theorem unlock_taken (ht : s.takes k kindUnlock r = true) (hr : (s.kiosk k).replyRoom = true) :
    exec (.unlock k r) s = .next (
      if service r.channel ≠ serviceManage then
        (s.modKiosk k KioskPort.takeGood).reply k kindUnlock r .badRequest []
      else if r.payload.length ≠ 8 then (s.modKiosk k KioskPort.takeGood).reply k kindUnlock r .badRequest []
      else (s.modKiosk k KioskPort.takeGood).tryUnlock k r) :=
  congrArg Host.Outcome.next (serve_taken _ ht hr)

theorem lockPort_of_other (h : s.noticePort ≠ some k) :
    s.lockPort k = s.setKiosk k { s.kiosk k with unlocked := false, cursor := none } := by
  unfold State.lockPort State.dropNoticePort
  rw [if_neg h]
  rfl

theorem dropNoticePort_of_eq (h : s.noticePort = some k) :
    s.dropNoticePort k = (s.setNotice none 0#13).modKiosk k fun p =>
      { p with control := p.control.filter fun e => !e.isNotice } := if_pos h

theorem dropNoticePort_of_ne (h : s.noticePort ≠ some k) : s.dropNoticePort k = s := if_neg h

theorem lockPort_of_notice (h : s.noticePort = some k) :
    s.lockPort k = (s.setNotice none 0#13).setKiosk k
      { s.kiosk k with
        unlocked := false, cursor := none, control := (s.kiosk k).control.filter fun e => !e.isNotice } := by
  unfold State.lockPort
  rw [dropNoticePort_of_eq h, modKiosk_modKiosk]
  rfl

/-- Settles O35. -/
theorem unlockAndLock : Obligations.UnlockAndLock := by
  refine ⟨fun s k r ht hr => ?_, fun s k r ht hr hs hu hp => ?_,
    fun s k => ⟨lockPort_of_other, lockPort_of_notice⟩⟩
  · rw [unlock_taken ht hr]
    refine ⟨fun h => ?_, fun hs hl hc => ?_, fun hs hl hc => ?_⟩
    · refine congrArg _ ?_
      split
      · rfl
      · next hs => exact if_pos (h.resolve_left hs)
    · rw [if_neg (not_not_intro hs), if_neg (not_not_intro hl)]
      exact congrArg _ (if_pos hc)
    · rw [if_neg (not_not_intro hs), if_neg (not_not_intro hl)]
      exact congrArg _ (if_neg hc)
  · exact congrArg Host.Outcome.next (serveManage_taken _ _ ht hr hs hu (by rw [hp]; rfl))

/-! ### The tables (R165, R150) -/

theorem tableOfCode_code (t : TableId) : tableOfCode t.code = some t := by cases t <;> rfl

theorem TableId.code_lt (t : TableId) : t.code < 7 := by cases t <;> decide

theorem tableOfCode_eq_none : ∀ {n : Nat}, 7 ≤ n → tableOfCode n = none
  | _ + 7, _ => rfl

theorem openBytes_eq (t : TableId) : t.openBytes = if t = .contact then 11 else if t = .job then 1 else 0 := by
  cases t <;> rfl

theorem readRecord_eq (s : State) (k : KioskId) (kind : Byte) (r : Request) (t : TableId) (i : Nat) :
    s.readRecord k kind r t i =
      ((s.reply k kind r .ok ([byte t.code, byte i] ++ s.record t i)).modKiosk k fun p =>
        { p with cursor := some (t, i + 1) }).advanceFree (if t = .contact then 11 else if t = .job then 1 else 0) := by
  rw [← openBytes_eq]
  rfl

theorem tableRead_taken (ht : s.takes k kindTableRead r = true) (hr : (s.kiosk k).replyRoom = true)
    (hs : service r.channel = serviceManage) (hu : (s.kiosk k).unlocked = true) (hl : r.payload.length = 2) :
    exec (.tableRead k r) s = .next (match tableOfCode (byteAt r.payload 0) with
      | none => (s.modKiosk k KioskPort.takeGood).reply k kindTableRead r .badRequest []
      | some tab =>
        if byteAt r.payload 1 < tab.size then
          (s.modKiosk k KioskPort.takeGood).readRecord k kindTableRead r tab (byteAt r.payload 1)
        else (s.modKiosk k KioskPort.takeGood).reply k kindTableRead r .outOfRange []) :=
  (congrArg Host.Outcome.next (serveManage_taken _ _ ht hr hs hu (decide_eq_true hl))).trans
    (by cases tableOfCode (byteAt r.payload 0) <;> rfl)

theorem tableReadNext_taken (ht : s.takes k kindTableReadNext r = true) (hr : (s.kiosk k).replyRoom = true)
    (hs : service r.channel = serviceManage) (hu : (s.kiosk k).unlocked = true) (hp : r.payload = []) :
    exec (.tableReadNext k r) s = .next (match (s.kiosk k).cursor with
      | none => (s.modKiosk k KioskPort.takeGood).reply k kindTableReadNext r .badState []
      | some (tab, i) =>
        if i < tab.size then (s.modKiosk k KioskPort.takeGood).readRecord k kindTableReadNext r tab i
        else (s.modKiosk k KioskPort.takeGood).reply k kindTableReadNext r .outOfRange []) := by
  have hcursor : ((s.modKiosk k KioskPort.takeGood).kiosk k).cursor = (s.kiosk k).cursor := by
    rw [modKiosk_kiosk_self]
    rfl
  refine (congrArg Host.Outcome.next (serveManage_taken _ _ ht hr hs hu (by rw [hp]; rfl))).trans ?_
  rw [hcursor]
  cases (s.kiosk k).cursor <;> rfl

theorem record_contact (s : State) (c : ContactIx) : ∃ open8, s.record .contact c.val = encodeContact open8 (s.contact c) :=
  ⟨fun n => Config.freeByte (s.freeIndex + n), by simp only [State.record, toFin_val]⟩

theorem encodeJob_print {drawn : Byte} {j : Job} (hk : j.kind = .print) :
    encodeJob drawn (some j) =
      byte (j.state.code + bitValue j.complete 3 + bitValue j.paused 4 + bitValue (drawn.getLsbD 1) 5 +
          bitValue j.lineErrors 6 + bitValue (drawn.getLsbD 0) 7) ::
        ([j.channel, byte j.device.val, j.priority] ++ be24 j.received ++ be24 j.sent ++ be24 j.creditLimit ++
          be24 (j.allocation.length * 4096 + (match j.allocation with | b :: _ => b.val | [] => 0xFFF))) := by
  unfold encodeJob Job.completeBit Job.truncatedBit Job.abortBit
  dsimp only
  rw [hk]
  rfl

theorem encodeJob_scan {drawn : Byte} {j : Job} (hk : j.kind = .scan) :
    encodeJob drawn (some j) =
      byte (j.state.code + 4 + bitValue (drawn.getLsbD 0) 3 + bitValue j.paused 4 + bitValue j.held.isSome 5 +
          bitValue j.lineErrors 6 + bitValue j.truncated 7) ::
        ([j.channel, byte j.device.val, j.priority] ++ be24 j.received ++ be24 j.sent ++ be24 j.maxBlocks ++
          be24 (j.allocation.length * 4096 + (match j.allocation with | b :: _ => b.val | [] => 0xFFF))) := by
  unfold encodeJob Job.completeBit Job.truncatedBit Job.abortBit
  dsimp only
  rw [hk]
  rfl

theorem JobState.code_eq (st : JobState) : st.code = match st with | .loading => 1 | .ready => 2 | .active => 3 := by
  cases st <;> rfl

/-- Settles O36. -/
theorem tableReads : Obligations.TableReads := by
  refine ⟨fun s k r tab i ht hr hs hu hi hp => ?_, fun s k r c i ht hr hs hu hp hc => ?_,
    fun s k r ht hr hs hu hp => ?_, fun s => ?_, by decide, fun drawn => ⟨rfl, fun j => ?_⟩, fun open8 => ?_⟩
  · have hcode : byteAt r.payload 0 = tab.code := by
      rw [hp]
      exact byte_toNat_of_le (by have := tab.code_lt; omega)
    have hindex : byteAt r.payload 1 = i := by
      rw [hp]
      exact byte_toNat_of_le (by omega)
    rw [tableRead_taken ht hr hs hu (by rw [hp]; rfl), hcode, tableOfCode_code, hindex]
    refine ⟨fun h => ?_, fun h => congrArg _ (if_neg (Nat.not_lt_of_le h))⟩
    rw [← readRecord_eq]
    exact congrArg _ (if_pos h)
  · have hcode : tableOfCode (byteAt r.payload 0) = none := by
      rw [hp]
      exact tableOfCode_eq_none hc
    rw [tableRead_taken ht hr hs hu (by rw [hp]; rfl), hcode]
  · rw [tableReadNext_taken ht hr hs hu hp]
    refine ⟨fun h => by rw [h], fun tab i h => ?_⟩
    rw [h]
    refine ⟨fun hi => ?_, fun hi => congrArg _ (if_neg (Nat.not_lt_of_le hi))⟩
    rw [← readRecord_eq]
    exact congrArg _ (if_pos hi)
  · refine ⟨fun e => ?_, fun p => ?_, fun z => ?_, fun d => ?_, fun n => ?_, rfl, fun i => ⟨Config.freeByte s.freeIndex, ?_⟩,
      record_contact s⟩
    all_goals simp only [State.record, toFin_val]
  · intro bit state rest
    have hstate : j.state.code = state := JobState.code_eq j.state
    refine ⟨fun hk => ⟨drawn.getLsbD 0, drawn.getLsbD 1, ?_⟩, fun hk => ⟨drawn.getLsbD 0, ?_⟩⟩
    · rw [encodeJob_print hk, hstate]
      rfl
    · rw [encodeJob_scan hk, hstate]
      rfl
  · refine ⟨rfl, ⟨(open8 10).getLsbD 0, (open8 10).getLsbD 1, open8, rfl⟩, fun b => ?_⟩
    cases hlast : b.last with
    | none =>
      refine ⟨[open8 6, open8 7, open8 8, open8 9], rfl, fun x y h => (nomatch h), ?_⟩
      unfold encodeContact
      dsimp only
      rw [hlast]
      rfl
    | some pt =>
      refine ⟨be16 pt.1 ++ be16 pt.2, rfl, fun x y h => by cases h; rfl, ?_⟩
      unfold encodeContact
      dsimp only
      rw [hlast]
      rfl

end Sys2Proof.Machine
end

section
/-! Proofs about the table writes (section 11.3): the checks of a write, what is stored, and the writes of routes, zones,
kiosk records and the spool record. -/

namespace Sys2Proof.Machine

variable {s : State} {k : KioskId} {r : Request} {record : List Byte}

/-! ### The checks (R165) -/

theorem checkWrite_of_form {tab : TableId} (i : Nat)
    (h : tab = .job ∨ tab = .contact ∨ record.length ≠ tab.recordSize) : s.checkWrite tab i record = .badRequest := by
  refine if_pos ?_
  rcases h with rfl | rfl | h
  · rfl
  · rfl
  · simp [h]

/-- A record that can be written: of a writable table, and as long as the table's records. -/
def fits (tab : TableId) (record : List Byte) : Prop :=
  tab ≠ .job ∧ tab ≠ .contact ∧ record.length = tab.recordSize

theorem not_readOnly {tab : TableId} (h : tab ≠ .job) (h' : tab ≠ .contact) : tab.readOnly = false := by
  cases tab with
  | job => exact absurd rfl h
  | contact => exact absurd rfl h'
  | _ => rfl

theorem checkWrite_of_range {tab : TableId} {i : Nat} (h : fits tab record) (hi : tab.size ≤ i) :
    s.checkWrite tab i record = .outOfRange := by
  obtain ⟨hjob, hcontact, hlength⟩ := h
  unfold State.checkWrite
  rw [if_neg (by simp [not_readOnly hjob hcontact, hlength]), if_pos hi]

theorem checkWrite_of_index {tab : TableId} {i : Nat} (h : fits tab record) (hi : i < tab.size) :
    s.checkWrite tab i record = s.checkRecord tab i record := by
  obtain ⟨hjob, hcontact, hlength⟩ := h
  unfold State.checkWrite
  rw [if_neg (by simp [not_readOnly hjob hcontact, hlength]), if_neg (Nat.not_le_of_lt hi)]

theorem okOr_isSome {α : Type} [DecidableEq α] (o : Option α) (st : Status) :
    okOr o.isSome st = if o = none then st else .ok := by
  cases o <;> rfl

theorem checkWrite_route (h : record.length = 8) (e : RouteId) :
    s.checkWrite .route e.val record = if decodeRoute record = none then .badRequest else .ok := by
  rw [checkWrite_of_index ⟨by decide, by decide, h⟩ e.isLt]
  exact okOr_isSome _ _

theorem checkWrite_zone (h : record.length = 16) (z : ZoneId) :
    s.checkWrite .zone z.val record = if decodeZone record = none then .badRequest else .ok := by
  rw [checkWrite_of_index ⟨by decide, by decide, h⟩ z.isLt]
  exact okOr_isSome _ _

theorem checkWrite_kiosk (h : record.length = 4) (n : KioskId) :
    s.checkWrite .kiosk n.val record = if decodeKiosk record = none then .badRequest else .ok := by
  rw [checkWrite_of_index ⟨by decide, by decide, h⟩ (Nat.lt_succ_of_lt n.isLt)]
  exact (if_pos n.isLt).trans (okOr_isSome _ _)

theorem checkWrite_spool (h : record.length = 4) : s.checkWrite .kiosk 16 record = .ok := by
  rw [checkWrite_of_index ⟨by decide, by decide, h⟩ (by decide)]
  rfl

/-- R91, checks 3 and 4. -/
theorem panelClash_iff (s : State) (p : PanelId) (x : Panel) :
    s.panelClash p x = true ↔ x.enabled = true ∧ ∃ q, q ≠ p ∧ (s.panel q).enabled = true ∧
      (s.panel q).device = x.device ∧
        ((s.device x.device).record.format ≠ .multidrop ∨ (s.panel q).address = x.address) := by
  simp [State.panelClash, allPanels, and_assoc]

theorem checkWrite_panel (h : record.length = 16) (p : PanelId) {x : Panel}
    (hx : decodePanel (s.panel p) record = some x) :
    s.checkWrite .panel p.val record = okOr (!s.panelClash p x) .badRequest := by
  rw [checkWrite_of_index ⟨by decide, by decide, h⟩ p.isLt]
  simp only [State.checkRecord, toFin_val, hx]

theorem checkWrite_panel_of_form (h : record.length = 16) (p : PanelId) (hx : decodePanel (s.panel p) record = none) :
    s.checkWrite .panel p.val record = .badRequest := by
  rw [checkWrite_of_index ⟨by decide, by decide, h⟩ p.isLt]
  simp only [State.checkRecord, toFin_val, hx]

/-- R162, check 2, and R22. -/
theorem deviceWritable_iff (s : State) (d : DeviceId) :
    s.deviceWritable d = true ↔ ((s.device d).service = .disabled ∨ (s.device d).service = .offline) ∧
      ∀ i j, i ∈ (s.device d).queue → s.job i = some j → j.held = none := by
  simp only [State.deviceWritable, Bool.and_eq_true, Bool.or_eq_true, beq_iff_eq, Bool.not_eq_true', List.any_eq_false]
  refine and_congr_right fun _ => ⟨fun h i j hi hj => ?_, fun h i hi => ?_⟩
  · have := h i hi
    rw [hj] at this
    simpa using this
  · cases hj : s.job i with
    | none => simp
    | some j => simp [h i j hi hj]

theorem checkWrite_device (h : record.length = 16) (d : DeviceId) :
    s.checkWrite .device d.val record =
      if s.deviceWritable d then okOr (decodeDevice record).isSome .badRequest else .badState := by
  rw [checkWrite_of_index ⟨by decide, by decide, h⟩ d.isLt]
  simp only [State.checkRecord, toFin_val]

/-! ### What is stored -/

theorem storeRecord_route (e : RouteId) {x : RouteEntry} (h : decodeRoute record = some x) :
    s.storeRecord .route e.val record = s.setRoute e x := by
  simp only [State.storeRecord, toFin_val, h]

theorem storeRecord_panel (p : PanelId) {x : Panel} (h : decodePanel (s.panel p) record = some x) :
    s.storeRecord .panel p.val record =
      ((s.releasePanel p).setPanel p x).modDevice (s.panel p).device (DevicePort.removeFromRound p) := by
  simp only [State.storeRecord, toFin_val, h, State.storePanel]

theorem storeRecord_zone (z : ZoneId) {x : Zone} (h : decodeZone record = some x) :
    s.storeRecord .zone z.val record = s.setZone z x := by
  simp only [State.storeRecord, toFin_val, h]

theorem storeRecord_device (d : DeviceId) {x : DeviceRecord} (h : decodeDevice record = some x) :
    s.storeRecord .device d.val record = s.storeDevice d x := by
  simp only [State.storeRecord, toFin_val, h]

theorem storeRecord_kiosk (n : KioskId) {c : Fin 4} {q : Nat} (h : decodeKiosk record = some (c, q)) :
    s.storeRecord .kiosk n.val record = (s.modKiosk n fun p => { p with recordRate := c, quota := q }).grantPass := by
  simp only [State.storeRecord, toFin_val, h, State.storeKiosk]

theorem storeRecord_spool (s : State) (record : List Byte) :
    s.storeRecord .kiosk 16 record = ((s.setSpoolRecord (decodeSpool record)).evalTight).grantPass := rfl

/-! ### A write served (R164, R165) -/

theorem writeRecord_of_ok {kind : Byte} {t : TableId} {i : Nat} (h : s.checkWrite t i record = .ok) :
    s.writeRecord k kind r t i record =
      ((s.reply k kind r .ok [byte t.code, byte i]).modKiosk k fun p => { p with cursor := some (t, i + 1) }).storeRecord
        t i record := by
  unfold State.writeRecord
  rw [h]
  rfl

theorem writeRecord_of_refused {kind : Byte} {t : TableId} {i : Nat} {st : Status}
    (h : s.checkWrite t i record = st) (hst : st ≠ .ok) : s.writeRecord k kind r t i record = s.refuse k kind r st := by
  unfold State.writeRecord
  rw [h]
  cases st with
  | ok => exact absurd rfl hst
  | _ => rfl

section

variable {ch tag index : Byte} {t : TableId}
  (ht : s.takes k kindTableWrite (writeRequest ch tag t index record) = true) (hr : (s.kiosk k).replyRoom = true)
include ht hr

theorem serveWrite_of_service (hs : service ch ≠ serviceManage) :
    s.serveWrite k ch tag t index record =
      (s.modKiosk k KioskPort.takeGood).reply k kindTableWrite (writeRequest ch tag t index record) .badRequest [] :=
  serveManage_service _ _ ht hr hs

variable (hs : service ch = serviceManage)
include hs

theorem serveWrite_of_locked (hu : (s.kiosk k).unlocked = false) :
    s.serveWrite k ch tag t index record =
      (s.modKiosk k KioskPort.takeGood).reply k kindTableWrite (writeRequest ch tag t index record) .locked [] :=
  serveManage_locked _ _ ht hr hs hu

variable (hu : (s.kiosk k).unlocked = true)
include hu

theorem serveWrite_of_refused {st : Status} (h : s.checkWrite t index.toNat record = st) (hst : st ≠ .ok) :
    s.serveWrite k ch tag t index record =
      (s.modKiosk k KioskPort.takeGood).reply k kindTableWrite (writeRequest ch tag t index record) st [] :=
  (serveManage_taken _ _ ht hr hs hu rfl).trans (writeRecord_of_refused (s := s.modKiosk k KioskPort.takeGood) h hst)

theorem serveWrite_of_ok (h : s.checkWrite t index.toNat record = .ok) :
    s.serveWrite k ch tag t index record =
      (((s.modKiosk k KioskPort.takeGood).reply k kindTableWrite (writeRequest ch tag t index record) .ok
        [byte t.code, index]).modKiosk k fun p => { p with cursor := some (t, index.toNat + 1) }).storeRecord t
        index.toNat record := by
  refine (serveManage_taken _ _ ht hr hs hu rfl).trans
    ((writeRecord_of_ok (s := s.modKiosk k KioskPort.takeGood) h).trans ?_)
  rw [byte_toNat_self]

end

/-- The commands that write an entry of a table. -/
theorem write_of_mem {row : TableId × (KioskId → Byte → Byte → Byte → List Byte → Instr)}
    (h : row ∈ [(.route, Instr.tableWriteRoute), (.panel, Instr.tableWritePanel), (.zone, Instr.tableWriteZone),
      (.device, Instr.tableWriteDevice), (.kiosk, Instr.tableWriteKiosk)]) :
    row.1 ≠ .job ∧ row.1 ≠ .contact ∧ ∀ (s : State) (k : KioskId) (ch tag index : Byte) (record : List Byte),
      exec (row.2 k ch tag index record) s = .next (s.serveWrite k ch tag row.1 index record) := by
  simp only [List.mem_cons, List.not_mem_nil, or_false] at h
  rcases h with rfl | rfl | rfl | rfl | rfl <;>
    exact ⟨TableId.noConfusion, TableId.noConfusion, fun _ _ _ _ _ _ => rfl⟩

/-- R165: TABLE_WRITE_NEXT is a write at the cursor. -/
theorem tableWriteNext_taken (ht : s.takes k kindTableWriteNext r = true) (hr : (s.kiosk k).replyRoom = true)
    (hs : service r.channel = serviceManage) (hu : (s.kiosk k).unlocked = true) :
    exec (.tableWriteNext k r) s = .next (match (s.kiosk k).cursor with
      | none => (s.modKiosk k KioskPort.takeGood).reply k kindTableWriteNext r .badState []
      | some (tab, i) => (s.modKiosk k KioskPort.takeGood).writeRecord k kindTableWriteNext r tab i r.payload) := by
  have hcursor : ((s.modKiosk k KioskPort.takeGood).kiosk k).cursor = (s.kiosk k).cursor := by
    rw [modKiosk_kiosk_self]
    rfl
  refine (congrArg Host.Outcome.next (serveManage_taken _ _ ht hr hs hu rfl)).trans ?_
  rw [hcursor]
  cases (s.kiosk k).cursor <;> rfl

/-- Settles O37. -/
theorem tableWriteChecks : Obligations.TableWriteChecks := by
  refine ⟨fun row h s k ch tag index record => ?_, fun s k ch tag record => ?_, fun s k r ht hr hp => ?_,
    fun s k r ht hr => ⟨fun hs => ?_, fun hs hu => ?_⟩, fun s record => ⟨fun tab i => checkWrite_of_form i,
      fun tab i hj hc hl => checkWrite_of_range ⟨hj, hc, hl⟩, checkWrite_route, checkWrite_zone, fun hl p => ?_,
      fun hl d => ?_, fun hl => ⟨checkWrite_spool hl, checkWrite_kiosk hl⟩⟩,
    fun s record => ⟨fun e x => storeRecord_route e, fun p x => storeRecord_panel p, fun z x => storeRecord_zone z,
      fun d x => storeRecord_device d, fun n c q => storeRecord_kiosk n, storeRecord_spool s record⟩,
    fun s k r ht hr hs hu => ?_⟩
  · obtain ⟨hjob, hcontact, hexec⟩ := write_of_mem h
    intro r ht hr G
    rw [hexec]
    exact ⟨fun hs => congrArg _ (serveWrite_of_service ht hr hs),
      fun hs hu => congrArg _ (serveWrite_of_locked ht hr hs hu),
      fun hs hu hl => congrArg _ (serveWrite_of_refused ht hr hs hu (checkWrite_of_form _ (.inr (.inr hl)))
        (by decide)),
      fun hs hu hl hi => congrArg _ (serveWrite_of_refused ht hr hs hu (checkWrite_of_range ⟨hjob, hcontact, hl⟩ hi)
        (by decide))⟩
  · intro r ht hr G answers
    exact ⟨fun hs => congrArg Host.Outcome.next (serveWrite_of_service (t := .kiosk) (index := 16#8) ht hr hs),
      fun hs hu => congrArg Host.Outcome.next (serveWrite_of_locked (t := .kiosk) (index := 16#8) ht hr hs hu),
      fun hs hu hl => congrArg Host.Outcome.next (serveWrite_of_refused (t := .kiosk) (index := 16#8) ht hr hs hu
        (checkWrite_of_form _ (.inr (.inr hl))) (by decide))⟩
  · have hnames : namesWritable r.payload = false := Bool.eq_false_iff.mpr fun hw => by
      have := (namesWritable_iff _).mp hw
      omega
    intro G answers
    have hexec : exec (.tableWriteReadOnly k r) s = .next (s.serveManage k kindTableWrite r true fun t =>
        t.refuse k kindTableWrite r .badRequest) := by
      simp only [exec, execTableWriteReadOnly, hnames, Bool.false_eq_true, if_false]
    exact ⟨fun hs => hexec.trans (congrArg _ (serveManage_service _ _ ht hr hs)),
      fun hs hu => hexec.trans (congrArg _ (serveManage_locked _ _ ht hr hs hu)),
      fun hs hu => hexec.trans (congrArg _ (serveManage_taken _ _ ht hr hs hu rfl))⟩
  · exact congrArg Host.Outcome.next (serveManage_service _ _ ht hr hs)
  · exact congrArg Host.Outcome.next (serveManage_locked _ _ ht hr hs hu)
  · refine ⟨checkWrite_panel_of_form hl p, fun x hx => ?_⟩
    intro clash
    rw [checkWrite_panel hl p hx]
    refine ⟨fun h => ?_, fun h => ?_⟩
    · rw [(panelClash_iff s p x).mpr h]
      rfl
    · rw [Bool.eq_false_iff.mpr fun hc => h ((panelClash_iff s p x).mp hc)]
      rfl
  · intro may
    rw [checkWrite_device hl d]
    refine ⟨fun h => if_neg fun hw => h ((deviceWritable_iff s d).mp hw), fun h => ?_⟩
    rw [if_pos ((deviceWritable_iff s d).mpr h)]
    exact okOr_isSome _ _
  · intro G
    rw [tableWriteNext_taken ht hr hs hu]
    refine ⟨fun h => by rw [h], fun tab i h => ?_⟩
    rw [h]
    exact ⟨fun hf => congrArg _ (writeRecord_of_refused (checkWrite_of_form i hf) (by decide)),
      fun hj hc hl hi => congrArg _ (writeRecord_of_refused (checkWrite_of_range ⟨hj, hc, hl⟩ hi) (by decide)),
      fun st hst hck => congrArg _ (writeRecord_of_refused hck hst), fun hck => congrArg _ (writeRecord_of_ok hck)⟩

end Sys2Proof.Machine
end

section
/-! Proofs about the writes of routes, zones, kiosk records and the spool record (sections 2.3, 3.2, 3.3, 7.3, 9.1). -/

namespace Sys2Proof.Machine

variable {s : State} {k : KioskId} {record : List Byte}

/-! ### A write at an index (R165) -/

section

variable {ch tag : Byte} {t : TableId} {i : Nat} (hi : i < 256)
  (ht : s.takes k kindTableWrite (writeRequest ch tag t (byte i) record) = true) (hr : (s.kiosk k).replyRoom = true)
  (hs : service ch = serviceManage) (hu : (s.kiosk k).unlocked = true)
include hi ht hr hs hu

theorem serveWrite_byte_refused {st : Status} (h : s.checkWrite t i record = st) (hst : st ≠ .ok) :
    s.serveWrite k ch tag t (byte i) record =
      (s.modKiosk k KioskPort.takeGood).reply k kindTableWrite (writeRequest ch tag t (byte i) record) st [] :=
  serveWrite_of_refused ht hr hs hu (by rw [byte_toNat_of_le (Nat.le_of_lt_succ hi), h]) hst

theorem serveWrite_byte_ok (h : s.checkWrite t i record = .ok) :
    s.serveWrite k ch tag t (byte i) record =
      (((s.modKiosk k KioskPort.takeGood).reply k kindTableWrite (writeRequest ch tag t (byte i) record) .ok
        [byte t.code, byte i]).modKiosk k fun p => { p with cursor := some (t, i + 1) }).storeRecord t i record := by
  have hindex : (byte i).toNat = i := byte_toNat_of_le (Nat.le_of_lt_succ hi)
  have hstored := serveWrite_of_ok ht hr hs hu (by rw [hindex, h])
  rwa [hindex] at hstored

end

/-! ### The fields of a record (R29, R110) -/

theorem actionOfCode_eq_none_iff : ∀ {n : Nat}, actionOfCode n = none ↔ 1 < n
  | 0 => by decide
  | 1 => by decide
  | _ + 2 => ⟨fun _ => by omega, fun _ => rfl⟩

theorem actionOfCode_eq_accept_iff {n : Nat} {a : Action} (h : actionOfCode n = some a) : a = .accept ↔ n = 1 := by
  unfold actionOfCode at h
  split at h <;> cases h <;> simp

theorem byte_byteAt (bs : List Byte) (i : Nat) : (byte (byteAt bs i)).toNat = byteAt bs i :=
  byte_toNat_of_le (Nat.le_of_lt_succ (be_byteAt_lt bs i))

theorem word16_lt (bs : List Byte) (i : Nat) : word16 bs i < 65536 := by
  have h0 := be_byteAt_lt bs i
  have h1 := be_byteAt_lt bs (i + 1)
  unfold word16
  omega

theorem decodeRoute_eq_none_iff (r : List Byte) :
    decodeRoute r = none ↔ 1 < byteAt r 5 / 16 ∨ 7 < byteAt r 5 % 16 := by
  rw [← actionOfCode_eq_none_iff, show 7 < byteAt r 5 % 16 ↔ 8 ≤ byteAt r 5 % 16 from Iff.rfl, ← toFin_eq_none_iff]
  unfold decodeRoute
  cases actionOfCode (byteAt r 5 / 16) <;> cases toFin 8 (byteAt r 5 % 16) <;> simp

theorem decodeRoute_fields {r : List Byte} {x : RouteEntry} (h : decodeRoute r = some x) :
    x.enabled = (byteAt r 0).testBit 0 ∧ x.matchValue.toNat = byteAt r 1 ∧ x.mask.toNat = byteAt r 2 ∧
      x.ports.toNat = word16 r 3 ∧ (x.action = .accept ↔ byteAt r 5 / 16 = 1) ∧ x.device.val = byteAt r 5 % 16 ∧
      x.hits = 0 := by
  unfold decodeRoute at h
  split at h
  · next a d ha hd =>
    cases h
    refine ⟨rfl, byte_byteAt r 1, byte_byteAt r 2, ?_, actionOfCode_eq_accept_iff ha, (toFin_eq_some_iff.mp hd).symm, rfl⟩
    exact Nat.mod_eq_of_lt (word16_lt r 3)
  · cases h

theorem decodeZone_eq_none_iff (r : List Byte) :
    decodeZone r = none ↔ 15 < byteAt r 1 ∨ 15 < byteAt r 2 ∨ min (word16 r 8) 4095 < min (word16 r 4) 4095 ∨
      min (word16 r 10) 4095 < min (word16 r 6) 4095 := by
  rw [show 15 < byteAt r 1 ↔ 16 ≤ byteAt r 1 from Iff.rfl, show 15 < byteAt r 2 ↔ 16 ≤ byteAt r 2 from Iff.rfl,
    ← toFin_eq_none_iff, ← toFin_eq_none_iff (n := 16) (i := byteAt r 2)]
  unfold decodeZone clampCoord
  cases toFin 16 (byteAt r 1) with
  | none => simp
  | some p =>
    cases toFin 16 (byteAt r 2) with
    | none => simp
    | some n =>
      dsimp only
      split <;> simp only [reduceCtorEq, false_iff, true_iff, false_or] <;> omega

theorem decodeZone_fields {r : List Byte} {x : Zone} (h : decodeZone r = some x) :
    x.enabled = (byteAt r 0).testBit 0 ∧ x.panel.val = byteAt r 1 ∧ x.kiosk.val = byteAt r 2 ∧
      x.x0 = min (word16 r 4) 4095 ∧ x.y0 = min (word16 r 6) 4095 ∧ x.x1 = min (word16 r 8) 4095 ∧
      x.y1 = min (word16 r 10) 4095 ∧ x.width = max 1 (min (word16 r 12) 32767) ∧
      x.height = max 1 (min (word16 r 14) 32767) := by
  unfold decodeZone at h
  split at h
  · next p n hp hn =>
    split at h
    · cases h
      exact ⟨rfl, (toFin_eq_some_iff.mp hp).symm, (toFin_eq_some_iff.mp hn).symm, rfl, rfl, rfl, rfl, rfl, rfl⟩
    · cases h
  · cases h

/-- Settles O38. -/
theorem routeAndZoneWrites : Obligations.RouteAndZoneWrites := by
  refine ⟨fun s k ch tag e record => ?_, fun s k ch tag z record => ?_,
    fun r => ⟨decodeRoute_eq_none_iff r, fun x => decodeRoute_fields⟩,
    fun r => ⟨decodeZone_eq_none_iff r, fun x => decodeZone_fields⟩⟩
  · intro r ht hr hs hu hl G
    have he : e.val < 256 := by omega
    refine ⟨fun h => congrArg Host.Outcome.next (serveWrite_byte_refused (t := .route) he ht hr hs hu ?_ (by decide)),
      fun x h => congrArg Host.Outcome.next
        ((serveWrite_byte_ok (t := .route) he ht hr hs hu ?_).trans (storeRecord_route e h))⟩
    · rw [checkWrite_route hl, if_pos h]
    · rw [checkWrite_route hl, h]
      rfl
  · intro r ht hr hs hu hl G
    have hz : z.val < 256 := by omega
    refine ⟨fun h => congrArg Host.Outcome.next (serveWrite_byte_refused (t := .zone) hz ht hr hs hu ?_ (by decide)),
      fun x h => congrArg Host.Outcome.next
        ((serveWrite_byte_ok (t := .zone) hz ht hr hs hu ?_).trans (storeRecord_zone z h))⟩
    · rw [checkWrite_zone hl, if_pos h]
    · rw [checkWrite_zone hl, h]
      rfl

/-! ### Kiosk records and the spool record (R40, R41, R138) -/

theorem decodeKiosk_of_rate_gt {rate b q1 q0 : Byte} (h : 4 ≤ rate.toNat) : decodeKiosk [rate, b, q1, q0] = none := by
  have hrate : toFin 4 (byteAt [rate, b, q1, q0] 0) = none := toFin_eq_none h
  unfold decodeKiosk
  rw [hrate]

theorem decodeKiosk_of_rate {rate b q1 q0 : Byte} {c : Fin 4} (h : rate.toNat = c.val) :
    decodeKiosk [rate, b, q1, q0] = some (c, min (q1.toNat * 256 + q0.toNat) 2048) := by
  have hrate : toFin 4 (byteAt [rate, b, q1, q0] 0) = some c := toFin_eq_some_iff.mpr h
  unfold decodeKiosk
  rw [hrate]
  rfl

/-- Settles O41. -/
theorem kioskAndSpoolWrites : Obligations.KioskAndSpoolWrites := by
  refine ⟨fun s k n ch tag rate b q1 q0 => ?_, fun s k ch tag a b f z => ?_⟩
  · intro r ht hr hs hu G
    have hn : n.val < 256 := by omega
    refine ⟨fun h => congrArg Host.Outcome.next (serveWrite_byte_refused (t := .kiosk) hn ht hr hs hu ?_ (by decide)),
      fun c h => congrArg Host.Outcome.next
        ((serveWrite_byte_ok (t := .kiosk) hn ht hr hs hu ?_).trans (storeRecord_kiosk n (decodeKiosk_of_rate h)))⟩
    · rw [checkWrite_kiosk rfl, decodeKiosk_of_rate_gt h]
      rfl
    · rw [checkWrite_kiosk rfl, decodeKiosk_of_rate h]
      rfl
  · intro r ht hr hs hu G T stored
    have hwritten : s.serveWrite k ch tag .kiosk 16#8 [a, b, f, z] = stored :=
      (serveWrite_of_ok (t := .kiosk) (index := 16#8) ht hr hs hu (checkWrite_spool rfl)).trans (storeRecord_spool _ _)
    exact ⟨congrArg Host.Outcome.next hwritten, congrArg Host.Outcome.next hwritten⟩

end Sys2Proof.Machine
end

section
/-! Proofs about what the release of contacts leaves alone, and about the writes of panels and devices (sections 6.1,
6.8, 6.9, 7.1, 10.10). -/

namespace Sys2Proof.Machine

variable {s t u : State} {k : KioskId} {record : List Byte}

/-! ### What the touch mapper leaves alone -/

/-- The states differ in kiosk ports, flags and contacts alone. -/
def Touched (s t : State) : Prop := t = { s with kiosks := t.kiosks, flags := t.flags, contacts := t.contacts }

namespace Touched

theorem refl : Touched s s := rfl

theorem trans (h : Touched s t) (g : Touched t u) : Touched s u := by
  unfold Touched at *
  rw [g, h]

theorem devices (h : Touched s t) : t.devices = s.devices := by
  unfold Touched at h
  rw [h]

theorem jobs (h : Touched s t) : t.jobs = s.jobs := by
  unfold Touched at h
  rw [h]

theorem panels (h : Touched s t) : t.panels = s.panels := by
  unfold Touched at h
  rw [h]

theorem modKiosk (f : KioskPort → KioskPort) : Touched s (s.modKiosk k f) := rfl

theorem setContact (c : ContactIx) (x : Contact) : Touched s (s.setContact c x) := rfl

theorem raise (f : Flag) : Touched s (s.raise f) := by
  unfold Touched
  rw [raise_frame]

end Touched

theorem overrun_touched (s : State) (k : KioskId) : Touched s (s.overrun k) :=
  .trans (.modKiosk (KioskPort.latch .touchOverrun)) (.raise .touchOverrun)

theorem handTouch_touched (s : State) (k : KioskId) (e : TouchEntry) : Touched s (s.handTouch k e).1 := by
  unfold State.handTouch
  dsimp only
  split
  · exact .trans (.modKiosk _) (overrun_touched _ k)
  · exact .modKiosk _

theorem liftBound_touched (s : State) (c : ContactIx) (b : Binding) : Touched s (s.liftBound c b) := by
  unfold State.liftBound
  dsimp only
  split <;> exact .trans (handTouch_touched s _ _) (.setContact c _)

theorem releaseContact_touched (s : State) (c : ContactIx) : Touched s (s.releaseContact c) := by
  unfold State.releaseContact
  split
  · exact .refl
  · exact .setContact c _
  · split
    · exact .refl
    · split
      · exact liftBound_touched s c _
      · exact .setContact c _

theorem foldl_touched {α : Type} {f : State → α → State} (h : ∀ s a, Touched s (f s a)) (l : List α) (s : State) :
    Touched s (l.foldl f s) := by
  induction l generalizing s with
  | nil => exact .refl
  | cons a rest ih => exact .trans (h s a) (ih _)

theorem releasePanel_touched (s : State) (p : PanelId) : Touched s (s.releasePanel p) :=
  foldl_touched (fun s c => releaseContact_touched s (contactIx p c)) contactIds s

theorem releasePanels_touched (s : State) (ps : List PanelId) : Touched s (s.releasePanels ps) :=
  foldl_touched releasePanel_touched ps s

theorem table_of_jobs (h : t.jobs = s.jobs) (i : JobId) : t.job i = s.job i := by unfold State.job; rw [h]

theorem table_of_panels (h : t.panels = s.panels) (p : PanelId) : t.panel p = s.panel p := by unfold State.panel; rw [h]

/-! ### Panels restarted (R103) -/

theorem restartPanels_cons (s : State) (p : PanelId) (ps : List PanelId) :
    s.restartPanels (p :: ps) = (s.restartPanel p).restartPanels ps := List.foldl_cons ..

theorem restartPanel_devices (s : State) (p : PanelId) : (s.restartPanel p).devices = s.devices :=
  (modPanel_devices ..).trans (releasePanel_touched s p).devices

theorem restartPanel_jobs (s : State) (p : PanelId) : (s.restartPanel p).jobs = s.jobs :=
  (modPanel_jobs ..).trans (releasePanel_touched s p).jobs

@[simp] theorem restartPanels_devices (s : State) (ps : List PanelId) : (s.restartPanels ps).devices = s.devices := by
  induction ps generalizing s with
  | nil => rfl
  | cons p ps ih =>
    rw [restartPanels_cons, ih, restartPanel_devices]

@[simp] theorem restartPanels_jobs (s : State) (ps : List PanelId) : (s.restartPanels ps).jobs = s.jobs := by
  induction ps generalizing s with
  | nil => rfl
  | cons p ps ih =>
    rw [restartPanels_cons, ih, restartPanel_jobs]

theorem restartPanel_panel (s : State) (p q : PanelId) :
    (s.restartPanel p).panel q = if q = p then (s.panel q).restart else s.panel q := by
  unfold State.restartPanel
  rw [modPanel_panel, table_of_panels (releasePanel_touched s p).panels,
    table_of_panels (releasePanel_touched s p).panels]
  split
  · next e => rw [e]
  · rfl

theorem restartPanels_panel (s : State) (ps : List PanelId) (q : PanelId) :
    (s.restartPanels ps).panel q = if q ∈ ps then (s.panel q).restart else s.panel q := by
  induction ps generalizing s with
  | nil => rfl
  | cons p ps ih =>
    rw [restartPanels_cons, ih, restartPanel_panel]
    by_cases hp : q = p <;> by_cases hps : q ∈ ps <;> simp [hp, hps, Panel.restart]

theorem mem_namedPanels {d : DeviceId} {p : PanelId} : p ∈ s.namedPanels d ↔ (s.panel p).device = d := by
  simp [State.namedPanels, allPanels]

/-! ### Panel writes (R91, R102, R105) -/

theorem releasePanel_eq_foldl (s : State) (p : PanelId) :
    s.releasePanel p = ((List.finRange 10).map (contactIx p)).foldl State.releaseContact s := List.foldl_map.symm

section

variable {D : DevicePort} {p : PanelId}

theorem removeFromRound_of_sending (h : D.poller.current = some (p, .sending)) :
    D.removeFromRound p = { D with
      holding := none,
      poller := { D.poller with
        pending := D.poller.pending.filter fun x => x != p, current := some (p, .settling false) } } := by
  simp only [DevicePort.removeFromRound, h, if_true]

theorem removeFromRound_of_reply {step : PollStep} (h : D.poller.current = some (p, step))
    (hstep : (∃ n, step = .awaiting n) ∨ ∃ bytes, step = .receiving bytes) :
    D.removeFromRound p = { D with
      poller := { D.poller with
        pending := D.poller.pending.filter fun x => x != p, current := some (p, .settling false) } } := by
  rcases hstep with ⟨n, rfl⟩ | ⟨bytes, rfl⟩ <;> simp only [DevicePort.removeFromRound, h, if_true]

theorem removeFromRound_of_settling {b : Bool} (h : D.poller.current = some (p, .settling b)) :
    D.removeFromRound p = { D with
      poller := { D.poller with pending := D.poller.pending.filter fun x => x != p } } := by
  simp only [DevicePort.removeFromRound, h, if_true]

theorem removeFromRound_of_other (h : ∀ step, D.poller.current ≠ some (p, step)) :
    D.removeFromRound p = { D with
      poller := { D.poller with pending := D.poller.pending.filter fun x => x != p } } := by
  cases hc : D.poller.current with
  | none => simp only [DevicePort.removeFromRound, hc]
  | some c =>
    obtain ⟨q, step⟩ := c
    have hq : q ≠ p := fun e => h step (by rw [hc, e])
    simp only [DevicePort.removeFromRound, hc, if_neg hq]

end

theorem decodePanel_eq_none_iff (old : Panel) (r : List Byte) :
    decodePanel old r = none ↔ 7 < byteAt r 1 ∨ byteAt r 2 = 0 ∨ byteAt r 2 = 255 := by
  rw [show 7 < byteAt r 1 ↔ 8 ≤ byteAt r 1 from Iff.rfl, ← toFin_eq_none_iff]
  unfold decodePanel
  cases toFin 8 (byteAt r 1) with
  | none => simp
  | some d =>
    dsimp only
    split
    · next h => simpa using h
    · next h => simpa using h

theorem decodePanel_fields {old x : Panel} {r : List Byte} (h : decodePanel old r = some x) :
    x.enabled = (byteAt r 0).testBit 0 ∧ x.swap = (byteAt r 0).testBit 1 ∧ x.mirrorX = (byteAt r 0).testBit 2 ∧
      x.mirrorY = (byteAt r 0).testBit 3 ∧ x.moveSuppress = (byteAt r 0).testBit 4 ∧
      x.device.val = byteAt r 1 ∧ x.address.toNat = byteAt r 2 ∧
      x.offsetX = max (-2048) (min (signed16 r 4) 2047) ∧ x.offsetY = max (-2048) (min (signed16 r 6) 2047) ∧
      x.gainX = max 2048 (min (word16 r 8) 8191) ∧ x.gainY = max 2048 (min (word16 r 10) 8191) ∧
      x.presence = .unknown ∧ x.missRun = 0 ∧ x.clamps = 0 ∧ x.causes = old.causes := by
  unfold decodePanel at h
  split at h
  · cases h
  · next d hd =>
    split at h
    · cases h
    · cases h
      exact ⟨rfl, rfl, rfl, rfl, rfl, (toFin_eq_some_iff.mp hd).symm, byte_byteAt r 2, rfl, rfl, rfl, rfl, rfl, rfl, rfl,
        rfl⟩

/-- Settles O39. -/
theorem panelWrites : Obligations.PanelWrites := by
  refine ⟨fun s k ch tag p record => ?_, releasePanel_eq_foldl,
    fun D p => ⟨removeFromRound_of_sending, fun h => ?_, fun h => ?_⟩,
    fun old r => ⟨decodePanel_eq_none_iff old r, fun x => decodePanel_fields⟩⟩
  · intro r ht hr hs hu hl G
    have hp : p.val < 256 := by omega
    refine ⟨fun h => congrArg Host.Outcome.next (serveWrite_byte_refused (t := .panel) hp ht hr hs hu
        (checkWrite_panel_of_form hl p h) (by decide)), fun x hx => ⟨fun h => congrArg Host.Outcome.next
          (serveWrite_byte_refused (t := .panel) hp ht hr hs hu ?_ (by decide)), fun h => congrArg Host.Outcome.next
            ((serveWrite_byte_ok (t := .panel) hp ht hr hs hu ?_).trans (storeRecord_panel p hx))⟩⟩
    · rw [checkWrite_panel (s := s) hl p hx, (panelClash_iff s p x).mpr h]
      rfl
    · rw [checkWrite_panel (s := s) hl p hx, Bool.eq_false_iff.mpr fun hc => h ((panelClash_iff s p x).mp hc)]
      rfl
  · rcases h with ⟨n, h⟩ | ⟨bytes, h⟩
    · exact removeFromRound_of_reply h (.inl ⟨n, rfl⟩)
    · exact removeFromRound_of_reply h (.inr ⟨bytes, rfl⟩)
  · rcases h with ⟨b, h⟩ | h
    · exact removeFromRound_of_settling h
    · exact removeFromRound_of_other h

end Sys2Proof.Machine
end

section
/-! Proofs about the write of a device record (sections 1.6.2, 1.7, 4.3, 6.9, 10.10). -/

namespace Sys2Proof.Machine

variable {s t : State} {d : DeviceId}

/-! ### The kind of a job (R2) -/

/-- A live record was live before, with a job of the same kind. -/
def KindsKept (s t : State) : Prop := ∀ n j', t.job n = some j' → ∃ j, s.job n = some j ∧ j'.kind = j.kind

theorem KindsKept.refl : KindsKept s s := fun _ j h => ⟨j, h, rfl⟩

theorem KindsKept.trans {u : State} (h : KindsKept s t) (g : KindsKept t u) : KindsKept s u := fun n j'' hu => by
  obtain ⟨j', ht, hk'⟩ := g n j'' hu
  obtain ⟨j, hs, hk⟩ := h n j' ht
  exact ⟨j, hs, hk'.trans hk⟩

theorem KindsKept.of_jobs (h : t.jobs = s.jobs) : KindsKept s t := fun n j hj => ⟨j, table_of_jobs h n ▸ hj, rfl⟩

theorem KindsKept.setJob {i : JobId} {j : Job} {x : Option Job} (hj : s.job i = some j)
    (hx : ∀ k, x = some k → k.kind = j.kind) : KindsKept s (s.setJob i x) := fun n j' h => by
  rw [setJob_job] at h
  split at h
  · next e => exact ⟨j, e ▸ hj, hx j' h⟩
  · exact ⟨j', h, rfl⟩

theorem move_kindsKept {K : Kind → Prop} {l l' : List BlockId} (m : Move K (l, s) (l', t)) : KindsKept s t := by
  cases m with
  | job hj i j k live side blocks => exact .setJob live fun _ h => Option.some.inj h ▸ side.1
  | drop hj i j reason live => exact .setJob (s := s.modDevice _ _) live fun _ h => nomatch h
  | finish hj i j reason count live => exact .setJob (s := s.modDevice _ _) live fun _ h => nomatch h
  | start hj d i may queued ready =>
    obtain ⟨j, live, _⟩ := ready
    unfold State.activate
    rw [live]
    exact .setJob (s := s.modDevice _ _) live fun _ h => Option.some.inj h ▸ rfl
  | _ => exact .of_jobs rfl

theorem moves_kindsKept {K : Kind → Prop} {l l' : List BlockId} (m : Moves K l s l' t) : KindsKept s t :=
  m.keeps (P := fun _ u => KindsKept s u) (fun _ _ _ _ step h => h.trans (move_kindsKept step)) .refl

/-! ### Jobs of a kind that the class does not serve (R22) -/

theorem failMismatched_cons (s : State) (c : DeviceClass) (i : JobId) (q : List JobId) :
    s.failMismatched c (i :: q) = (s.failMismatch c i).failMismatched c q := List.foldl_cons ..

theorem failMismatch_eq (s : State) (c : DeviceClass) (i : JobId) :
    s.failMismatch c i = match s.job i with
      | some j =>
        if (c = .printer ∧ j.kind = .print) ∨ (c = .scanner ∧ j.kind = .scan) then s else s.endJob i .failedNoDevice
      | none => s := by
  unfold State.failMismatch
  cases s.job i with
  | none => rfl
  | some j =>
    dsimp only
    simp only [serves_iff]

theorem failMismatch_moves (s : State) (c : DeviceClass) (i : JobId) : Moves anyKind [] s [] (s.failMismatch c i) :=
  failMismatched_moves [] s c [i]

/-- A job of the queue whose kind the class does not serve is ended. -/
theorem failMismatched_job {c : DeviceClass} {q : List JobId} {i : JobId} (hi : i ∈ q)
    (h : ∀ j, s.job i = some j → c.serves j.kind = false) : (s.failMismatched c q).job i = none := by
  induction q generalizing s with
  | nil => cases hi
  | cons n rest ih =>
    rw [failMismatched_cons]
    by_cases hn : i = n
    · subst hn
      refine (moves_free (failMismatched_moves [] _ c rest)).1 i ?_
      unfold State.failMismatch
      cases hj : s.job i with
      | none => exact hj
      | some j =>
        dsimp only
        rw [h j hj]
        exact endJob_free s i _
    · refine ih ((List.mem_cons.mp hi).resolve_left hn) fun j' hj' => ?_
      obtain ⟨j, hj, hk⟩ := moves_kindsKept (failMismatch_moves s c n) i j' hj'
      rw [hk]
      exact h j hj

/-! ### The store of a device record (R162, R22, R60, R17, R103) -/

theorem testQueue_cons (s : State) (x : DeviceRecord) (i : JobId) (q : List JobId) :
    s.testQueue x (i :: q) = (s.modJob i fun j => j.testReady x).testQueue x q := List.foldl_cons ..

theorem modJob_devices (s : State) (i : JobId) (f : Job → Job) : (s.modJob i f).devices = s.devices := by
  unfold State.modJob
  split <;> rfl

@[simp] theorem testQueue_devices (s : State) (x : DeviceRecord) (q : List JobId) :
    (s.testQueue x q).devices = s.devices := by
  induction q generalizing s with
  | nil => rfl
  | cons i q ih => rw [testQueue_cons, ih, modJob_devices]

theorem testQueue_panels (s : State) (x : DeviceRecord) (q : List JobId) : (s.testQueue x q).panels = s.panels := by
  induction q generalizing s with
  | nil => rfl
  | cons i q ih =>
    rw [testQueue_cons, ih]
    unfold State.modJob
    split <;> rfl

theorem restartAtn_service (p : DevicePort) : p.restartAtn.service = p.service := by
  unfold DevicePort.restartAtn
  split
  · split <;> rfl
  · rfl

theorem restartAtn_of_inactive {p : DevicePort} (h : p.atnLine = false) :
    p.restartAtn = { p with atn := false, blanking := .stopped } := by
  unfold DevicePort.restartAtn
  rw [if_neg (by simp [h])]

theorem restartAtn_of_active {p : DevicePort} (h : p.atnLine = true) :
    p.restartAtn = if blankingMs p.record.atnBlanking = 0 then { p with atn := true, blanking := .stopped }
      else { p with atn := false, blanking := .running (blankingMs p.record.atnBlanking) } := if_pos h

theorem blankingMs_eq_zero_iff (c : Fin 4) : blankingMs c = 0 ↔ c = 0 := by revert c; decide

theorem blankingMs_of_ne {c : Fin 4} (h : c ≠ 0) : blankingMs c = if c = 1 then 2 else if c = 2 then 8 else 32 := by
  revert c
  decide

/-- R22: the record is stored, and the jobs of a kind that its class does not serve have been ended. -/
def State.cleared (s : State) (d : DeviceId) (x : DeviceRecord) : State :=
  let T := s.modDevice d (DevicePort.restartEngine x)
  if x.cls = (s.device d).record.cls then T else T.failMismatched x.cls (s.device d).queue

/-- The service state and the qualified ATN level of a stored device record. -/
def DevicePort.restUnder (x : DeviceRecord) (p : DevicePort) : DevicePort :=
  DevicePort.restartAtn { p with service := if x.cls = .unused then .disabled else .offline }

theorem storeDevice_eq (s : State) (d : DeviceId) (x : DeviceRecord) :
    s.storeDevice d x =
      (((s.cleared d x).modDevice d (DevicePort.restUnder x)).testQueue x
        (((s.cleared d x).modDevice d (DevicePort.restUnder x)).device d).queue).restartPanels (s.namedPanels d) := rfl

theorem cleared_moves (s : State) (d : DeviceId) (x : DeviceRecord) :
    Moves anyKind [] (s.modDevice d (DevicePort.restartEngine x)) [] (s.cleared d x) := by
  unfold State.cleared
  dsimp only
  split
  · exact .refl
  · exact failMismatched_moves [] _ _ _

theorem storeDevice_device (s : State) (d : DeviceId) (x : DeviceRecord) :
    (s.storeDevice d x).device d = ((s.cleared d x).device d).restUnder x := by
  rw [storeDevice_eq, table_of_devices (restartPanels_devices _ _), table_of_devices (testQueue_devices _ _ _),
    modDevice_device_self]

theorem storeDevice_record (s : State) (d : DeviceId) (x : DeviceRecord) :
    ((s.storeDevice d x).device d).record = x := by
  rw [storeDevice_device, DevicePort.restUnder, restartAtn_record]
  show ((s.cleared d x).device d).record = x
  rw [(moves_framed (cleared_moves s d x)).device d, modDevice_device_self]
  rfl

theorem storeDevice_service (s : State) (d : DeviceId) (x : DeviceRecord) :
    ((s.storeDevice d x).device d).service = if x.cls = .unused then .disabled else .offline := by
  rw [storeDevice_device, DevicePort.restUnder, restartAtn_service]

theorem storeDevice_panel {x : DeviceRecord} {p : PanelId} (h : (s.panel p).device = d) :
    ((s.storeDevice d x).panel p).presence = .unknown ∧ ((s.storeDevice d x).panel p).missRun = 0 := by
  rw [storeDevice_eq, restartPanels_panel, if_pos (mem_namedPanels.mpr h)]
  exact ⟨rfl, rfl⟩

theorem storeDevice_job {x : DeviceRecord} {i : JobId} {j : Job} (hcls : x.cls ≠ (s.device d).record.cls)
    (hi : i ∈ (s.device d).queue) (hj : s.job i = some j) (h : x.cls.serves j.kind = false) :
    (s.storeDevice d x).job i = none := by
  have hcleared : (s.cleared d x).job i = none := by
    unfold State.cleared
    dsimp only
    rw [if_neg hcls]
    refine failMismatched_job hi fun j' hj' => ?_
    rw [modDevice_job, hj] at hj'
    exact Option.some.inj hj' ▸ h
  rw [storeDevice_eq, table_of_jobs (restartPanels_jobs _ _)]
  exact (moves_free (testQueue_moves [] _ _ _)).1 i hcleared

/-! ### The fields of a device record (R162) -/

theorem classOfCode_eq_some_iff {n : Nat} {c : DeviceClass} : classOfCode n = some c ↔ n = c.code := by
  constructor
  · intro h
    unfold classOfCode at h
    split at h <;> cases h <;> rfl
  · rintro rfl
    exact classOfCode_code c

theorem classOfCode_eq_none_iff : ∀ {n : Nat}, classOfCode n = none ↔ 3 < n
  | 0 | 1 | 2 | 3 => by decide
  | _ + 4 => ⟨fun _ => by omega, fun _ => rfl⟩

theorem formatOfCode_eq_some_iff {n : Nat} {f : Format} : formatOfCode n = some f ↔ n = f.code := by
  constructor
  · intro h
    unfold formatOfCode at h
    split at h <;> cases h <;> rfl
  · rintro rfl
    exact formatOfCode_code f

theorem formatOfCode_eq_none_iff : ∀ {n : Nat}, formatOfCode n = none ↔ 3 < n
  | 0 | 1 | 2 | 3 => by decide
  | _ + 4 => ⟨fun _ => by omega, fun _ => rfl⟩

theorem holdModeOfCode_eq_some_iff {n : Nat} {h : HoldMode} : holdModeOfCode n = some h ↔ n = h.code := by
  constructor
  · intro e
    unfold holdModeOfCode at e
    split at e <;> cases e <;> rfl
  · rintro rfl
    exact holdModeOfCode_code h

theorem holdModeOfCode_eq_none_iff : ∀ {n : Nat}, holdModeOfCode n = none ↔ 2 < n
  | 0 | 1 | 2 => by decide
  | _ + 3 => ⟨fun _ => by omega, fun _ => rfl⟩

theorem DeviceClass.code_eq_three_iff (c : DeviceClass) : c.code = 3 ↔ c = .touch := by cases c <;> decide

theorem Format.code_eq_three_iff (f : Format) : f.code = 3 ↔ f = .multidrop := by cases f <;> decide

theorem decodeDevice_eq_none_iff (r : List Byte) :
    decodeDevice r = none ↔
      3 < byteAt r 0 ∨ 3 < byteAt r 1 ∨ 2 < byteAt r 5 ∨ (byteAt r 1 = 3 ∧ byteAt r 0 ≠ 3) := by
  unfold decodeDevice
  cases hc : classOfCode (byteAt r 0) with
  | none =>
    have := classOfCode_eq_none_iff.mp hc
    exact ⟨fun _ => .inl this, fun _ => rfl⟩
  | some c =>
    cases hf : formatOfCode (byteAt r 1) with
    | none =>
      have := formatOfCode_eq_none_iff.mp hf
      exact ⟨fun _ => .inr (.inl this), fun _ => rfl⟩
    | some f =>
      cases hh : holdModeOfCode (byteAt r 5) with
      | none =>
        have := holdModeOfCode_eq_none_iff.mp hh
        exact ⟨fun _ => .inr (.inr (.inl this)), fun _ => rfl⟩
      | some h =>
        have hclt := c.code_lt
        have hflt := f.code_lt
        have hhlt := h.code_lt
        dsimp only
        rw [classOfCode_eq_some_iff.mp hc, formatOfCode_eq_some_iff.mp hf, holdModeOfCode_eq_some_iff.mp hh,
          and_congr f.code_eq_three_iff (not_congr c.code_eq_three_iff)]
        split
        · next hbad => exact ⟨fun _ => .inr (.inr (.inr hbad)), fun _ => rfl⟩
        · next hgood =>
          refine ⟨fun e => (nomatch e), fun e => ?_⟩
          rcases e with e | e | e | e
          · omega
          · omega
          · omega
          · exact absurd e hgood

theorem max_one_eq (n : Nat) : max 1 n = if n = 0 then 1 else n := by
  split <;> omega

theorem max_two_eq (n : Nat) : max 2 n = if n < 2 then 2 else n := by
  split <;> omega

theorem decodeDevice_fields {r : List Byte} {x : DeviceRecord} (h : decodeDevice r = some x) :
    byteAt r 0 = x.cls.code ∧ byteAt r 1 = x.format.code ∧ byteAt r 5 = x.holdMode.code ∧
      x.prescale8 = (word16 r 2).testBit 15 ∧ x.divider = word16 r 2 % 4096 ∧
      x.rdyLow = (byteAt r 4).testBit 0 ∧ x.atnLow = (byteAt r 4).testBit 1 ∧ x.holdLow = (byteAt r 4).testBit 2 ∧
      x.wakeOnActivity = (byteAt r 4).testBit 3 ∧ x.resetBreak = (byteAt r 4).testBit 4 ∧
      x.atnBlanking.val = byteAt r 4 / 32 % 4 ∧ x.startThreshold = byteAt r 6 ∧
      x.underrunTimeout = max 1 (byteAt r 7) ∧ x.firstByteTimeout = max 1 (byteAt r 8) ∧
      x.endGap = max 2 (byteAt r 9) ∧ x.faultLimit = max 1 (byteAt r 10) ∧ x.holdSet = max 1 (byteAt r 11) ∧
      x.holdClear = max 1 (byteAt r 12) ∧ x.pollInterval = max 1 (byteAt r 13) ∧
      x.replyTimeout = max 1 (byteAt r 14) := by
  unfold decodeDevice at h
  split at h
  · next c f m hc hf hh =>
    split at h
    · cases h
    · cases h
      exact ⟨classOfCode_eq_some_iff.mp hc, formatOfCode_eq_some_iff.mp hf, holdModeOfCode_eq_some_iff.mp hh, rfl, rfl,
        rfl, rfl, rfl, rfl, rfl, rfl, rfl, rfl, rfl, rfl, rfl, rfl, rfl, rfl, rfl⟩
  · cases h

theorem restartPanels_cons_eq (s : State) (p : PanelId) (ps : List PanelId) :
    s.restartPanels (p :: ps) = ((s.releasePanel p).setPanel p
      { (s.releasePanel p).panel p with presence := .unknown, missRun := 0 }).restartPanels ps :=
  restartPanels_cons s p ps

/-- Settles O40. -/
theorem deviceWrites : Obligations.DeviceWrites := by
  refine ⟨fun s k ch tag d record => ?_, fun s d x => rfl, fun s c x i q => ⟨rfl, ?_, rfl, ?_⟩,
    fun s p ps => ⟨rfl, restartPanels_cons_eq s p ps⟩, fun p => ⟨restartAtn_of_inactive, fun h h0 => ?_,
      fun h h0 => ?_⟩, fun r => ⟨decodeDevice_eq_none_iff r, fun x h => ?_⟩⟩
  · intro r ht hr hs hu hl G
    have hd : d.val < 256 := by omega
    have hcheck := checkWrite_device (s := s) hl d
    refine ⟨fun h => congrArg Host.Outcome.next (serveWrite_byte_refused (t := .device) hd ht hr hs hu ?_ (by decide)),
      fun hservice hheld => ⟨fun h => congrArg Host.Outcome.next (serveWrite_byte_refused (t := .device) hd ht hr hs hu
        ?_ (by decide)), fun x hx => ⟨_, congrArg Host.Outcome.next ((serveWrite_byte_ok (t := .device) hd ht hr hs hu
          ?_).trans (storeRecord_device d hx)), rfl, storeDevice_record _ d x, storeDevice_service _ d x,
            fun p hp => storeDevice_panel hp, fun i j hcls hi hj h => storeDevice_job hcls hi hj ?_⟩⟩⟩
    · rw [hcheck, if_neg]
      rw [deviceWritable_iff]
      rintro ⟨hservice, hheld⟩
      rcases h with h | ⟨i, j, hi, hj, hne⟩
      · exact h hservice
      · exact hne (hheld i j hi hj)
    · rw [hcheck, if_pos ((deviceWritable_iff s d).mpr ⟨hservice, hheld⟩), h]
      rfl
    · rw [hcheck, if_pos ((deviceWritable_iff s d).mpr ⟨hservice, hheld⟩), hx]
      rfl
    · exact Bool.eq_false_iff.mpr fun hserves => h ((serves_iff _ _).mp hserves)
  · cases hj : s.job i <;> rw [failMismatched_cons, failMismatch_eq, hj]
  · rw [testQueue_cons]
    unfold State.modJob
    cases s.job i <;> rfl
  · rw [restartAtn_of_active h, if_pos ((blankingMs_eq_zero_iff _).mpr h0)]
  · rw [restartAtn_of_active h, if_neg (mt (blankingMs_eq_zero_iff _).mp h0), blankingMs_of_ne h0]
  · simp only [← max_one_eq, ← max_two_eq]
    obtain ⟨hcls, hformat, hhold, hrest⟩ := decodeDevice_fields h
    refine ⟨hcls.trans ?_, hformat.trans ?_, hhold.trans ?_, hrest⟩
    · cases x.cls <;> rfl
    · cases x.format <;> rfl
    · cases x.holdMode <;> rfl

end Sys2Proof.Machine
end

section
/-! Proofs about the status reports (section 11.4). -/

namespace Sys2Proof.Machine

variable {s : State} {k : KioskId} {r : Request} {d : DeviceId}

/-! ### Codes as bytes (R150) -/

theorem optByte_map_val {n : Nat} (o : Option (Fin n)) :
    optByte (o.map Fin.val) = match o with | some i => byte i.val | none => 0xFF#8 := by
  cases o <;> rfl

theorem DeviceClass.byte_code (c : DeviceClass) :
    byte c.code = match c with | .unused => 0#8 | .printer => 1#8 | .scanner => 2#8 | .touch => 3#8 := by
  cases c <;> rfl

theorem ServiceState.byte_code (st : ServiceState) :
    byte st.code = match st with
      | .disabled => 0#8 | .offline => 1#8 | .online => 2#8 | .draining => 3#8 | .fault _ => 4#8 := by
  cases st <;> rfl

theorem ServiceState.optByte_targetCode (st : ServiceState) :
    optByte st.targetCode = match st with
      | .fault .online => 2#8 | .fault .draining => 3#8 | .fault .offline => 1#8 | _ => 0xFF#8 := by
  cases st with
  | fault t => cases t <;> rfl
  | _ => rfl

theorem LinkState.byte_code (l : LinkState) :
    byte l.code = match l with | .normal => 0#8 | .degraded => 1#8 | .isolated => 2#8 := by
  cases l <;> rfl

theorem byte_jobStateCode (o : Option Job) :
    byte (jobStateCode o) = match o with
      | none => 0#8
      | some j => match j.state with | .loading => 1#8 | .ready => 2#8 | .active => 3#8 := by
  cases o with
  | none => rfl
  | some j =>
    dsimp only [jobStateCode]
    cases j.state <;> rfl

theorem Store.byte_stateCode (st : Store) :
    byte st.stateCode = if st.writing ≠ none then 2#8 else if st.contents = none then 1#8 else 0#8 := by
  unfold Store.stateCode
  cases st.writing with
  | some w => rfl
  | none => cases st.contents <;> rfl

theorem byte_bitValue_zero (b : Bool) : byte (bitValue b 0) = if b then 1#8 else 0#8 := by cases b <;> rfl

/-! ### The port that a request names (R164) -/

theorem portOperand_of_eq {n : Nat} {b : Byte} {i : Fin n} (hp : r.payload = [b]) (h : b.toNat = i.val) :
    portOperand n r = some i := by
  unfold portOperand
  rw [hp]
  exact toFin_eq_some_iff.mpr h

theorem portOperand_byte {n : Nat} {i : Fin n} (hn : n ≤ 256) (hp : r.payload = [byte i.val]) :
    portOperand n r = some i := portOperand_of_eq hp (byte_toNat_of_le (by omega))

theorem portOperand_of_ge {n : Nat} {b : Byte} (hp : r.payload = [b]) (h : n ≤ b.toNat) : portOperand n r = none := by
  unfold portOperand
  rw [hp]
  exact toFin_eq_none h

/-! ### STATUS_READ and PORT_STATUS -/

theorem statusFields_eq (s : State) :
    s.statusFields = be16 s.free.length ++ (match s.free with | b :: _ => be16 b.val | [] => [0xFF#8, 0xFF#8]) ++
      [if s.tight then 1#8 else 0#8] ++ be16 s.flags.toNat ++ be16 s.noticeMask.toNat ++
      [match s.noticePort with | some n => byte n.val | none => 0xFF#8,
        if s.store.writing ≠ none then 2#8 else if s.store.contents = none then 1#8 else 0#8,
        byte s.store.rate.val] := by
  unfold State.statusFields
  rw [optByte_map_val, Store.byte_stateCode, byte_bitValue_zero]
  cases s.noticePort <;> rfl

theorem portFields_eq (s : State) (n : KioskId) :
    let p := s.kiosk n
    let bit := fun (b : Bool) (v : Nat) => if b then v else 0
    s.portFields n =
      [byte n.val, (match p.link with | .normal => 0#8 | .degraded => 1#8 | .isolated => 2#8), byte p.score,
          byte p.cleanCount, byte (bit p.unlocked 1), byte p.rate.val, p.causes] ++
        be16 ((List.finRange 3).map fun t => chainLength (s.job (jobIx n t))).sum ++ be16 p.quota ++
        [byte p.control.length, byte (p.control.filter ControlEntry.isReply).length, byte p.touch.length,
          byte (bit p.replyHeld 1 + p.line.code * 2),
          (match p.cursor with | some c => byte c.1.code | none => 0xFF#8),
          (match p.cursor with | some c => byte c.2 | none => 0xFF#8)] := by
  intro p bit
  rw [← holdingOf_eq_sum, ← LinkState.byte_code]
  show _ = [byte n.val, byte (s.kiosk n).link.code] ++ _
  generalize hc : (s.kiosk n).cursor = c
  cases c <;> simp only [State.portFields, hc] <;> rfl

/-! ### DEVICE_STATUS -/

/-- R166: STEP by its code, or what the free byte gives when no panel is polled. -/
def State.stepField (s : State) (q : Poller) : Nat :=
  match q.current with
  | some (_, step) => step.code
  | none => (Config.freeByte s.freeIndex).toNat % 4

theorem PollStep.code_lt (x : PollStep) : x.code < 4 := by
  cases x <;> simp only [PollStep.code] <;> decide

theorem stepField_lt (s : State) (q : Poller) : s.stepField q < 4 := by
  unfold State.stepField
  split
  · next step _ => exact step.code_lt
  · exact Nat.mod_lt _ (by decide)

theorem pollByte_eq (s : State) (q : Poller) :
    s.pollByte q = byte (bitValue q.running 0 + s.stepField q * 2 + bitValue q.roundDue 3) := by
  unfold State.pollByte State.stepField
  cases q.current <;> rfl

theorem queueFields_eq (s : State) (q : List JobId) :
    s.queueFields q = q.flatMap fun i => [byte i.val, (match s.job i with
      | none => 0#8
      | some j => match j.state with | .loading => 1#8 | .ready => 2#8 | .active => 3#8)] :=
  congrArg (List.flatMap · q) (funext fun i => by rw [byte_jobStateCode])

theorem modPanels_kiosks (f : Panel → Panel) (ps : List PanelId) (s : State) :
    ps.foldl (fun t n => t.modPanel n f) s = { s with panels := (ps.foldl (fun t n => t.modPanel n f) s).panels } := by
  induction ps generalizing s with
  | nil => rfl
  | cons p ps ih =>
    rw [List.foldl_cons, ih]
    rfl

/-- Panels changed one after another, by a change that is done once. -/
theorem modPanels_panel {f : Panel → Panel} (hf : ∀ p, f (f p) = f p) (ps : List PanelId) (s : State) (q : PanelId) :
    (ps.foldl (fun t n => t.modPanel n f) s).panel q = if q ∈ ps then f (s.panel q) else s.panel q := by
  induction ps generalizing s with
  | nil => rfl
  | cons p ps ih =>
    rw [List.foldl_cons, ih, modPanel_panel]
    by_cases hp : q = p <;> by_cases hps : q ∈ ps <;> simp [hp, hps, hf]

theorem emptyCauses_frame (s : State) (d : DeviceId) :
    s.emptyCauses d = { s.modDevice d fun p => { p with causes := 0#4 } with panels := (s.emptyCauses d).panels } :=
  modPanels_kiosks _ _ _

theorem emptyCauses_panel (s : State) (d : DeviceId) (p : PanelId) :
    (s.emptyCauses d).panel p = if (s.panel p).device = d then { s.panel p with causes := 0#2 } else s.panel p := by
  unfold State.emptyCauses
  rw [modPanels_panel (f := fun q => { q with causes := 0#2 }) fun _ => rfl]
  simp only [mem_namedPanels, modDevice_panel]

theorem emptyCauses_device (s : State) (d e : DeviceId) :
    (s.emptyCauses d).device e = if e = d then { s.device d with causes := 0#4 } else s.device e := by
  rw [emptyCauses_frame]
  exact modDevice_device s d e fun p => { p with causes := 0#4 }

theorem manage_deviceStatus (ht : s.takes k kindDeviceStatus r = true) (hr : (s.kiosk k).replyRoom = true)
    (hs : service r.channel = serviceManage) (hu : (s.kiosk k).unlocked = true) (hl : r.payload.length = 1) :
    exec (.deviceStatus k r) s = .next (match portOperand 8 r with
      | none => (s.modKiosk k KioskPort.takeGood).reply k kindDeviceStatus r .outOfRange []
      | some d => (((s.modKiosk k KioskPort.takeGood).reply k kindDeviceStatus r .ok
          ((s.modKiosk k KioskPort.takeGood).deviceFields d)).emptyCauses d).advanceFree 1) :=
  (congrArg Host.Outcome.next (serveManage_taken _ _ ht hr hs hu (decide_eq_true hl))).trans
    (by cases portOperand 8 r <;> rfl)

theorem manage_portStatus (ht : s.takes k kindPortStatus r = true) (hr : (s.kiosk k).replyRoom = true)
    (hs : service r.channel = serviceManage) (hu : (s.kiosk k).unlocked = true) (hl : r.payload.length = 1) :
    exec (.portStatus k r) s = .next (match portOperand 16 r with
      | none => (s.modKiosk k KioskPort.takeGood).reply k kindPortStatus r .outOfRange []
      | some n => ((s.modKiosk k KioskPort.takeGood).reply k kindPortStatus r .ok
          ((s.modKiosk k KioskPort.takeGood).portFields n)).modKiosk n fun p => { p with causes := 0#8 }) :=
  (congrArg Host.Outcome.next (serveManage_taken _ _ ht hr hs hu (decide_eq_true hl))).trans
    (by cases portOperand 16 r <;> rfl)

theorem Phase.code_eq (ph : Phase) : ph.code = match ph with | .none => 0 | .reception => 1 | .delivery => 2 := by
  cases ph <;> rfl

theorem LineState.code_eq (l : LineState) :
    l.code = match l with | .idle => 0 | .frame => 1 | .brk => 2 | .gap => 3 := by
  cases l <;> rfl

/-- Settles O42. -/
theorem statusReports : Obligations.StatusReports := by
  refine ⟨fun s k r ht hr hs hu hp => ?_, fun s k n r ht hr hs hu hp => ?_, fun s k r n ht hr hs hu hp hn => ?_,
    fun s k r n ht hr hs hu hp => ?_, fun s n => ?_, fun s d => ?_⟩
  · intro G
    have hstatus := (congrArg Host.Outcome.next (serveManage_taken (kind := kindStatusRead)
      (decide (r.payload.length = 0)) (fun t => t.reply k kindStatusRead r .ok t.statusFields) ht hr hs hu
      (by rw [hp]; rfl)) : exec (.statusRead k r) s = _)
    exact hstatus.trans (congrArg (fun b => Host.Outcome.next (G.reply k kindStatusRead r .ok b)) (statusFields_eq G))
  · rw [manage_portStatus ht hr hs hu (by rw [hp]; rfl), portOperand_byte (by decide) hp]
  · rw [manage_portStatus ht hr hs hu (by rw [hp]; rfl), portOperand_of_ge hp hn]
  · intro G
    rw [manage_deviceStatus ht hr hs hu (by rw [hp]; rfl)]
    refine ⟨fun hn => by rw [portOperand_of_ge hp hn], fun d hd => ?_⟩
    rw [portOperand_of_eq hp hd]
    let T := G.reply k kindDeviceStatus r .ok (G.deviceFields d)
    have frame := emptyCauses_frame T d
    exact ⟨(T.emptyCauses d).advanceFree 1, rfl, (congrArg State.kiosks frame :), emptyCauses_device T d,
      emptyCauses_panel T d, (congrArg State.jobs frame :), (congrArg State.flags frame :),
      (congrArg State.free frame :), (congrArg State.mem frame :)⟩
  · exact portFields_eq s n
  · intro p bit panels held
    refine ⟨s.stepField p.poller, stepField_lt s p.poller, fun c x h => ?_, ?_⟩
    · unfold State.stepField
      rw [h]
      cases x <;> rfl
    · dsimp only [State.deviceFields]
      rw [DeviceClass.byte_code, ServiceState.byte_code, ServiceState.optByte_targetCode, optByte_map_val,
        queueFields_eq, pollByte_eq]
      cases (s.device d).poller.current <;> cases s.activeJob d <;> rfl

end Sys2Proof.Machine
end

section
/-! Proofs about the flags, the notice port, the settings store and the power-on reset (sections 11.5 to 11.8). -/

namespace Sys2Proof.Machine

variable {s : State} {k n : KioskId} {r : Request} {c : Instr} {kind : Byte}

/-- A management request that every check passes is served on the state that took its frame (R164). -/
theorem exec_managed {form : Bool} {f : State → State} (h : exec c s = .next (s.serveManage k kind r form f))
    (ht : s.takes k kind r = true) (hr : (s.kiosk k).replyRoom = true) (hs : service r.channel = serviceManage)
    (hu : (s.kiosk k).unlocked = true) (hf : form = true) : exec c s = .next (f (s.modKiosk k KioskPort.takeGood)) :=
  h.trans (congrArg Host.Outcome.next (serveManage_taken form f ht hr hs hu hf))

/-! ### FLAGS_CLEAR (R167) -/

theorem Flag.isIn_ite_mask (b : Bool) (f g : Flag) :
    g.isIn (if b = true then f.mask else 0#13) = (decide (g = f) && b) := by
  cases b with
  | true => rw [if_pos rfl, Flag.isIn_mask, Bool.and_true]
  | false => rw [if_neg (by decide), Bool.and_false]; exact BitVec.getLsbD_zero

theorem ServiceState.isFault_iff (st : ServiceState) : st.isFault = true ↔ ∃ target, st = .fault target := by
  cases st <;> simp [ServiceState.isFault]

/-- R167: the level-bound flags whose condition holds. -/
theorem isIn_boundFlags (s : State) (f : Flag) :
    f.isIn s.boundFlags = true ↔ (f = .kioskIsolated ∧ ∃ n, (s.kiosk n).link = .isolated) ∨
      (f = .deviceFault ∧ ∃ d target, (s.device d).service = .fault target) ∨
      (f = .panelAbsent ∧ ∃ p, (s.panel p).enabled = true ∧ (s.panel p).presence = .absent) := by
  unfold State.boundFlags
  rw [Flag.isIn_or, Flag.isIn_or, Flag.isIn_ite_mask, Flag.isIn_ite_mask, Flag.isIn_ite_mask]
  simp only [Bool.or_eq_true, Bool.and_eq_true, decide_eq_true_eq, List.any_eq_true,
    allKiosks, allDevices, allPanels, List.mem_finRange, true_and, ServiceState.isFault_iff, or_assoc]

theorem isIn_flagOperand (r : Request) (f : Flag) :
    f.isIn (flagOperand r) = (word16 r.payload 0).testBit f.bit := by
  unfold Flag.isIn flagOperand
  rw [BitVec.getLsbD_ofNat, decide_eq_true f.bit_lt, Bool.true_and]

theorem isIn_clear (f : Flag) (v w b : FlagSet) :
    f.isIn (v &&& ~~~(w &&& ~~~b)) = true ↔ f.isIn v = true ∧ (f.isIn w = false ∨ f.isIn b = true) := by
  unfold Flag.isIn
  rw [BitVec.getLsbD_and, BitVec.getLsbD_not, BitVec.getLsbD_and, BitVec.getLsbD_not, decide_eq_true f.bit_lt]
  cases v.getLsbD f.bit <;> cases w.getLsbD f.bit <;> cases b.getLsbD f.bit <;> decide

/-! ### NOTICE_SET (R168) -/

theorem dropNoticePort_kiosk (s : State) (k n : KioskId) :
    (s.dropNoticePort k).kiosk n = if s.noticePort = some k ∧ n = k then
      { s.kiosk n with control := (s.kiosk n).control.filter fun e => !e.isNotice } else s.kiosk n := by
  by_cases h : s.noticePort = some k
  · rw [dropNoticePort_of_eq h, modKiosk_kiosk]
    by_cases e : n = k
    · rw [if_pos e, if_pos ⟨h, e⟩, e]
      rfl
    · rw [if_neg e, if_neg fun x => e x.2]
      rfl
  · rw [dropNoticePort_of_ne h, if_neg fun x => h x.1]

theorem dropOldNotice_of_some {old : KioskId} (h : s.noticePort = some old) (hk : old ≠ k) :
    s.dropOldNotice k = s.dropNoticePort old := by
  unfold State.dropOldNotice
  rw [h]
  exact if_neg hk

theorem dropOldNotice_of_ne (h : ∀ old, s.noticePort = some old → old = k) : s.dropOldNotice k = s := by
  unfold State.dropOldNotice
  cases hn : s.noticePort with
  | none => rfl
  | some old => exact if_pos (h old hn)

theorem dropOldNotice_flags (s : State) (k : KioskId) : (s.dropOldNotice k).flags = s.flags := by
  unfold State.dropOldNotice
  split
  · split
    · rfl
    · exact dropNoticePort_flags s _
  · rfl

/-- The new notice port keeps its NOTICE; another port that was it loses the one that waits. -/
theorem dropOldNotice_kiosk (hn : n ≠ k) :
    (s.dropOldNotice k).kiosk n = if s.noticePort = some n then
      { s.kiosk n with control := (s.kiosk n).control.filter fun e => !e.isNotice } else s.kiosk n := by
  cases hold : s.noticePort with
  | none => rw [dropOldNotice_of_ne (by simp [hold])]; rfl
  | some old =>
    by_cases e : old = k
    · rw [dropOldNotice_of_ne (by simp [hold, e]), if_neg]
      exact fun x => hn ((Option.some.inj x).symm.trans e)
    · rw [dropOldNotice_of_some hold e, dropNoticePort_kiosk]
      by_cases en : n = old
      · rw [if_pos ⟨hold, en⟩, if_pos (congrArg some en.symm)]
      · rw [if_neg fun x => en x.2, if_neg fun x => en (Option.some.inj x).symm]

theorem handNotice_any (s : State) (k : KioskId) :
    ((s.handNotice k).kiosk k).control.any ControlEntry.isNotice = true := by
  rw [handNotice_kiosk]
  cases h : (s.kiosk k).control.any ControlEntry.isNotice with
  | true => rw [if_neg (by simp), h]
  | false =>
    rw [if_pos ⟨rfl, rfl⟩, List.any_append, Bool.or_eq_true]
    exact Or.inr rfl

theorem takeNotice_of_clear {w : FlagSet} (h : s.flags &&& w = 0#13) :
    s.takeNotice k w = (s.dropOldNotice k).setNotice (some k) w := by
  unfold State.takeNotice
  exact if_pos ((congrArg (· &&& w) (dropOldNotice_flags s k)).trans h)

theorem takeNotice_of_set {w : FlagSet} (h : s.flags &&& w ≠ 0#13) :
    s.takeNotice k w = ((s.dropOldNotice k).setNotice (some k) w).handNotice k := by
  unfold State.takeNotice
  exact if_neg fun e => h ((congrArg (· &&& w) (dropOldNotice_flags s k)).symm.trans e)

theorem takeNotice_fields (s : State) (k : KioskId) (w : FlagSet) :
    (s.takeNotice k w).noticePort = some k ∧ (s.takeNotice k w).noticeMask = w ∧ (s.takeNotice k w).flags = s.flags := by
  by_cases h : s.flags &&& w = 0#13
  · rw [takeNotice_of_clear h]
    exact ⟨rfl, rfl, dropOldNotice_flags s k⟩
  · rw [takeNotice_of_set h]
    exact ⟨rfl, rfl, dropOldNotice_flags s k⟩

theorem takeNotice_kiosk (w : FlagSet) (hn : n ≠ k) :
    (s.takeNotice k w).kiosk n = if s.noticePort = some n then
      { s.kiosk n with control := (s.kiosk n).control.filter fun e => !e.isNotice } else s.kiosk n := by
  rw [← dropOldNotice_kiosk hn]
  by_cases h : s.flags &&& w = 0#13
  · rw [takeNotice_of_clear h]
    rfl
  · rw [takeNotice_of_set h, handNotice_kiosk, if_neg fun x => hn x.1]
    rfl

theorem not_isNotice_eq :
    (fun e : ControlEntry => !e.isNotice) = fun e => match e with | .notice => false | _ => true := by
  funext e
  cases e <;> rfl

/-- Settles O43. -/
theorem flagsAndNotices : Obligations.FlagsAndNotices := by
  refine ⟨fun s k r ht hr hs hu hl => ?_, fun s k r ht hr hs hu hl => ?_⟩
  · intro G
    refine ⟨_, exec_managed rfl ht hr hs hu (decide_eq_true hl), rfl, fun f => ?_⟩
    refine (isIn_clear f s.flags (flagOperand r) G.boundFlags).trans ?_
    rw [isIn_flagOperand, isIn_boundFlags]
    rfl
  · intro T w
    have hexec := exec_managed (c := .noticeSet k r) rfl ht hr hs hu (decide_eq_true hl)
    refine ⟨fun h => hexec.trans (congrArg Host.Outcome.next (if_pos h)), fun h =>
      ⟨T.takeNotice k w, hexec.trans (congrArg Host.Outcome.next (if_neg h)), ?_⟩⟩
    obtain ⟨hport, hmask, hflags⟩ := takeNotice_fields T k w
    refine ⟨hport, hmask, hflags, fun hset => ?_, fun n hn => ?_, fun hnone hclear => ?_⟩
    · rw [takeNotice_of_set (s := T) hset]
      exact handNotice_any _ k
    · have hkiosk : T.kiosk n = s.kiosk n :=
        (modKiosk_kiosk_of_ne _ _ _ _ hn).trans (modKiosk_kiosk_of_ne _ _ _ _ hn)
      rw [takeNotice_kiosk w hn, hkiosk, not_isNotice_eq]
      rfl
    · rw [takeNotice_of_clear (s := T) hclear, dropOldNotice_of_ne (s := T) fun old h => absurd h (hnone old)]

/-! ### STORE_WRITE (R169) -/

theorem raise_replyHeld (s : State) (f : Flag) (k : KioskId) :
    ((s.raise f).kiosk k).replyHeld = (s.kiosk k).replyHeld := by
  obtain ⟨_, _, hheld, _⟩ := moves_kin (raise_moves (K := anyKind) [] s f) k
  exact hheld

theorem storeWriteComplete_of_none (h : s.store.writing = none) : exec .storeWriteComplete s = .next s :=
  congrArg Host.Outcome.next (by rw [h])

theorem storeWriteComplete_of_some {w : StoreWrite} (h : s.store.writing = some w) :
    exec .storeWriteComplete s = .next (State.answerWrite ((s.setStore
      { contents := some (w.code, w.rate), writing := none, code := w.code, rate := w.rate }).raise .storeDone) w) :=
  congrArg Host.Outcome.next (by rw [h])

theorem answerWrite_eq (s : State) (w : StoreWrite) :
    s.answerWrite w = if (s.kiosk w.port).replyHeld then s.modKiosk w.port fun p =>
      { p with
        control := p.control ++ [.reply w.channel w.tag kindStoreWrite .ok [] .nothing], replyHeld := false } else s := by
  unfold State.answerWrite State.handControl
  rw [modKiosk_modKiosk]

theorem started_contents (s : State) : s.store.contents.getD (blankCode, 2) =
    ((match s.store.contents with | some c => c.1 | none => [0#8, 0#8, 0#8, 0#8, 0#8, 0#8, 0#8, 0#8]),
      (match s.store.contents with | some c => c.2 | none => 2)) := by
  cases s.store.contents <;> rfl

/-- Settles O44. -/
theorem settingsStore : Obligations.SettingsStore := by
  refine ⟨fun s k r ht hr hs hu hl => ?_, fun s => storeWriteComplete_of_none, fun s w h => ?_, fun s h => ?_,
    fun s h => ⟨s.started, congrArg Host.Outcome.next (if_pos h), fun k => ?_, ?_⟩⟩
  · intro G
    have hexec := exec_managed (c := .storeWrite k r) rfl ht hr hs hu (decide_eq_true hl)
    refine ⟨fun h => ?_, fun h hw => ?_, fun c hc hw => ?_⟩
    · rw [hexec, toFin_eq_none h]
      rfl
    · rw [hexec, toFin_eq_some h]
      exact congrArg Host.Outcome.next (if_pos (Option.isSome_iff_ne_none.mpr hw))
    · rw [hexec, hc, toFin_val]
      exact congrArg Host.Outcome.next (if_neg (by simp [hw]))
  · rw [storeWriteComplete_of_some h, answerWrite_eq, raise_replyHeld]
    rfl
  · exact congrArg Host.Outcome.next (if_neg (by simp [h]))
  · rw [started_kiosk, started_contents]
    rfl
  · unfold State.started
    cases s.store.contents <;> rfl

/-! ### The power-on reset (R171) -/

theorem afterPowerOn_eq (st : Store) :
    st.afterPowerOn = { Store.reset with contents := if st.writing = none then st.contents else none } := by
  unfold Store.afterPowerOn
  cases st.writing <;> rfl

/-- Settles O45. -/
theorem powerOnReset : Obligations.PowerOnReset := by
  intro s
  refine ⟨s.poweredOn, rfl, fun d => ?_, ?_⟩
  · rw [poweredOn_device, reset_device]
    rfl
  · unfold State.poweredOn
    rw [afterPowerOn_eq]
    rfl

end Sys2Proof.Machine
end

section
/-! Proofs about the resets of the switch and of a kiosk port (sections 8.5, 9.4, 11.8). -/

namespace Sys2Proof.Machine

variable {s : State} {k m : KioskId} {r : Request}

/-! ### The requests (R148, R170) -/

theorem releases_iff (a : AfterSend) (e : ControlEntry) (h : a ≠ .nothing) :
    e.releases a = true ↔ ∃ ch tag kind st f, e = .reply ch tag kind st f a := by
  cases e <;> simp [ControlEntry.releases, ControlEntry.after, h.symm]
  exact decide_eq_true_iff

theorem switchResetWaits_iff (s : State) : s.switchResetWaits = true ↔ ∃ k, (s.kiosk k).afterFrame = .switchReset ∨
    ∃ ch tag kind st f, ControlEntry.reply ch tag kind st f .switchReset ∈ (s.kiosk k).control := by
  unfold State.switchResetWaits
  simp only [List.any_eq_true, allKiosks, List.mem_finRange, true_and, Bool.or_eq_true, decide_eq_true_eq,
    releases_iff .switchReset _ (by decide)]
  refine exists_congr fun k => ⟨?_, ?_⟩
  · rintro (⟨e, he, ch, tag, kind, st, f, rfl⟩ | h)
    · exact .inr ⟨ch, tag, kind, st, f, he⟩
    · exact .inl h
  · rintro (h | ⟨ch, tag, kind, st, f, he⟩)
    · exact .inr h
    · exact .inl ⟨_, he, ch, tag, kind, st, f, rfl⟩

/-! ### A port reset (R137, R148) -/

theorem resetPort_kiosk (s : State) (k : KioskId) : (s.resetPort k).kiosk k = (s.kiosk k).relink.drop :=
  (dropPort_kiosk _ k).trans (congrArg KioskPort.drop (modKiosk_kiosk_self s k _))

theorem resetPort_quiet (s : State) (k : KioskId) : Quiet k (s.resetPort k) := dropPort_quiet _ k

/-- Settles O46. -/
theorem resetRequests : Obligations.ResetRequests := by
  refine ⟨switchResetWaits_iff, fun s k r ht hr hs hu hp => ?_, fun s k r n ht hr hs hu hp => ?_⟩
  · intro G
    have hexec := exec_managed (c := .switchReset k r) rfl ht hr hs hu (by rw [hp]; rfl)
    exact ⟨fun h => hexec.trans (congrArg Host.Outcome.next (if_pos h)),
      fun h => hexec.trans (congrArg Host.Outcome.next (if_neg (Bool.eq_false_iff.mp h)))⟩
  · intro G
    have hexec := exec_managed (c := .portReset k r) rfl ht hr hs hu (by rw [hp]; rfl)
    refine ⟨fun hn => ?_, fun hn => ?_, fun m hm hn => ⟨(G.reply k kindPortReset r .ok []).resetPort m, ?_, rfl, ?_, ?_⟩⟩
    · rw [hexec, portOperand_of_ge hp hn]
      rfl
    · rw [hexec, portOperand_of_eq hp hn]
      exact congrArg Host.Outcome.next (if_pos rfl)
    · rw [hexec, portOperand_of_eq hp hn]
      exact congrArg Host.Outcome.next (if_neg hm)
    · have hkiosk : (G.reply k kindPortReset r .ok []).kiosk m = s.kiosk m :=
        (modKiosk_kiosk_of_ne _ _ _ _ hm).trans (modKiosk_kiosk_of_ne _ _ _ _ hm)
      rw [resetPort_kiosk, hkiosk]
      rfl
    · obtain ⟨hport, hslots, _⟩ := resetPort_quiet (G.reply k kindPortReset r .ok []) m
      exact ⟨hslots, hport⟩

/-! ### The end of the REPLY's transmission (R133, R148, R170) -/

theorem frameTransmitEnd_of_frame (h : (s.kiosk k).line = .frame) : exec (.frameTransmitEnd k) s =
    .next ((s.modKiosk k KioskPort.endFrame).frameEnded k (s.kiosk k).source (s.kiosk k).afterFrame) :=
  congrArg Host.Outcome.next (if_pos h)

theorem frameTransmitEnd_of_after (hl : (s.kiosk k).line = .frame) (hs : (s.kiosk k).source = .control)
    {a : AfterSend} (ha : (s.kiosk k).afterFrame = a) : exec (.frameTransmitEnd k) s =
      .next ((s.modKiosk k KioskPort.endFrame).frameEnded k .control a) := by
  rw [frameTransmitEnd_of_frame hl, hs, ha]

/-- What the port loses with its frame it loses with the reset as well. -/
theorem switchReset_endFrame (p : KioskPort) : p.endFrame.switchReset = p.switchReset := rfl

theorem modKiosk_resetSwitch_kiosk {f : KioskPort → KioskPort} (hf : ∀ p, (f p).switchReset = p.switchReset)
    (n : KioskId) : ((s.modKiosk k f).resetSwitch).kiosk n = (s.kiosk n).switchReset := by
  rw [resetSwitch_kiosk, modKiosk_kiosk]
  split
  · next e => rw [hf, e]
  · rfl

theorem resetSwitch_contact (s : State) (c : ContactIx) : s.resetSwitch.contact c = .free := by
  unfold State.contact State.resetSwitch
  simp

theorem restartAtn_frame (p : DevicePort) :
    p.restartAtn = { p with atn := p.restartAtn.atn, blanking := p.restartAtn.blanking } := by
  cases h : p.atnLine with
  | false => rw [restartAtn_of_inactive h]
  | true =>
    rw [restartAtn_of_active h]
    split <;> rfl

theorem restState_eq (x : DeviceRecord) : x.restState = if x.cls = .unused then .disabled else .offline := rfl

/-- Settles O47. -/
theorem resetsTakeEffect : Obligations.ResetsTakeEffect := by
  refine ⟨fun s k hl hs ha => ⟨_, frameTransmitEnd_of_after hl hs ha, fun n => ?_, fun d => ?_, resetSwitch_job _,
    rfl, rfl, resetSwitch_panel _, resetSwitch_contact _, resetSwitch_free _, rfl, rfl, rfl, rfl, rfl, rfl, rfl, rfl⟩,
    fun s k hl hs ha => ⟨_, frameTransmitEnd_of_after hl hs ha, ?_, ?_⟩⟩
  · exact modKiosk_resetSwitch_kiosk switchReset_endFrame n
  · have hdevice : ((s.modKiosk k KioskPort.endFrame).resetSwitch).device d = (s.device d).switchReset :=
      resetSwitch_device _ d
    have hsame : (s.device d).switchReset = _ := congrArg (fun p : DevicePort => { p with queue := [], causes := 0#4 })
      (restartAtn_frame _)
    dsimp only [State.frameEnded]
    rw [hdevice, hsame]
    exact ⟨rfl, rfl, restState_eq _, rfl, rfl, rfl, rfl, rfl, rfl⟩
  · refine (resetPort_kiosk _ k).trans ?_
    rw [modKiosk_kiosk_self]
    rfl
  · obtain ⟨hport, hslots, _⟩ := resetPort_quiet (s.modKiosk k KioskPort.endFrame) k
    exact ⟨hslots, hport⟩

end Sys2Proof.Machine
end

section
/-! Proofs about DEVICE_DRAIN and DEVICE_RESUME (sections 1.6.1, 6.8, 11.2). -/

namespace Sys2Proof.Machine

variable {s : State} {k : KioskId} {r : Request} {d : DeviceId}

/-! ### The effect of a drain (R14) -/

/-- R14: the service state that a drain leaves. -/
def State.drainedService (s : State) (d : DeviceId) : ServiceState :=
  match (s.device d).service with
  | .online => if (s.device d).record.cls ≠ .touch ∧ s.hasWork d = true then .draining else .offline
  | .fault .online => if s.hasWork d = true then .fault .draining else .fault .offline
  | st => st

theorem drainedService_of_online (h : (s.device d).service = .online) (hc : (s.device d).record.cls ≠ .touch) :
    s.drainedService d = if s.hasWork d then .draining else .offline := by
  unfold State.drainedService
  rw [h]
  simp [hc]

theorem drainedService_of_touch (h : (s.device d).service = .online) (hc : (s.device d).record.cls = .touch) :
    s.drainedService d = .offline := by
  unfold State.drainedService
  rw [h]
  simp [hc]

theorem drainedService_of_faultOnline (h : (s.device d).service = .fault .online) :
    s.drainedService d = if s.hasWork d then .fault .draining else .fault .offline := by
  unfold State.drainedService
  rw [h]

theorem drainedService_of_other (h : (s.device d).service ≠ .online) (h' : (s.device d).service ≠ .fault .online) :
    s.drainedService d = (s.device d).service := by
  unfold State.drainedService
  split
  · contradiction
  · contradiction
  · rfl

theorem drain_of_touch (h : (s.device d).service = .online) (hc : (s.device d).record.cls = .touch) :
    s.drain d = s.leaveOnline d := by
  unfold State.drain
  rw [h]
  exact if_pos hc

/-- A drain that ends no polling sets the service state and nothing else. -/
def drainsInPlace (s : State) (d : DeviceId) : Prop :=
  (s.device d).service = .online ∧ (s.device d).record.cls ≠ .touch ∨ (s.device d).service = .fault .online

theorem drain_of_drainsInPlace (h : drainsInPlace s d) :
    s.drain d = s.setDevice d { s.device d with service := s.drainedService d } := by
  unfold State.drain
  rcases h with ⟨ho, hc⟩ | hf
  · rw [ho, drainedService_of_online ho hc]
    exact if_neg hc
  · rw [hf, drainedService_of_faultOnline hf]
    rfl

theorem drain_of_other (h : (s.device d).service ≠ .online) (h' : (s.device d).service ≠ .fault .online) :
    s.drain d = s := by
  unfold State.drain
  split
  · contradiction
  · contradiction
  · rfl

theorem leaveOnline_device (s : State) (d : DeviceId) :
    (s.leaveOnline d).device d = { (s.device d).abandonRound with service := .offline } := by
  unfold State.leaveOnline
  rw [table_of_devices (releasePanels_touched _ _).devices, modDevice_device_self]

theorem drain_service (s : State) (d : DeviceId) : ((s.drain d).device d).service = s.drainedService d := by
  by_cases hplace : drainsInPlace s d
  · rw [drain_of_drainsInPlace hplace, setDevice_device_self]
  · have hf : (s.device d).service ≠ .fault .online := fun h => hplace (.inr h)
    by_cases ho : (s.device d).service = .online
    · have hc : (s.device d).record.cls = .touch := not_not.mp fun h => hplace (.inl ⟨ho, h⟩)
      rw [drain_of_touch ho hc, leaveOnline_device, drainedService_of_touch ho hc]
    · rw [drain_of_other ho hf, drainedService_of_other ho hf]

theorem polledPanels_of_touch (hc : (s.device d).record.cls = .touch) (ho : (s.device d).service = .online) :
    s.polledPanels d =
      if (s.device d).record.format = .multidrop then s.enabledPanels d else (s.enabledPanels d).take 1 :=
  if_pos ⟨hc, ho⟩

theorem drainFields_byte (s : State) (d : DeviceId) :
    s.drainFields [byte d.val] = [byte (s.device d).service.code, optByte (s.device d).service.targetCode] := by
  have hat : toFin 8 (byteAt [byte d.val] 0) = some d := toFin_eq_some_iff.mpr (byte_toNat_of_le (by omega))
  unfold State.drainFields
  rw [if_pos (show [byte d.val].length = 1 from rfl), hat]

theorem drainFields_of_ge {n : Byte} (h : 8 ≤ n.toNat) : s.drainFields [n] = [0xFF#8, 0xFF#8] := by
  have hat : toFin 8 (byteAt [n] 0) = none := toFin_eq_none h
  unfold State.drainFields
  rw [if_pos (show [n].length = 1 from rfl), hat]
  rfl

theorem refuse_drain (hp : r.payload = [byte d.val]) (status : Status) :
    s.refuse k kindDeviceDrain r status = s.reply k kindDeviceDrain r status
      [byte (s.device d).service.code, optByte (s.device d).service.targetCode] := by
  rw [← drainFields_byte, ← hp]
  rfl

theorem refuse_drain_of_ge {n : Byte} (hp : r.payload = [n]) (h : 8 ≤ n.toNat) (status : Status) :
    s.refuse k kindDeviceDrain r status = s.reply k kindDeviceDrain r status [0xFF#8, 0xFF#8] := by
  rw [← drainFields_of_ge (s := s) h, ← hp]
  rfl

section
variable (ht : s.takes k kindDeviceDrain r = true) (hr : (s.kiosk k).replyRoom = true)
  (hs : service r.channel = serviceManage) (hu : (s.kiosk k).unlocked = true) (hp : r.payload = [byte d.val])
include ht hr hs hu hp

theorem deviceDrain_of_disabled (h : (s.device d).service = .disabled) : exec (.deviceDrain k r) s =
    .next ((s.modKiosk k KioskPort.takeGood).reply k kindDeviceDrain r .badState [0#8, 0xFF#8]) := by
  rw [exec_managed (c := .deviceDrain k r) rfl ht hr hs hu (by rw [hp]; rfl), portOperand_byte (by decide) hp]
  refine congrArg Host.Outcome.next ((if_pos h).trans ?_)
  rw [refuse_drain hp, modKiosk_device, h]
  rfl

/-- The REPLY carries the state that the drain leaves. -/
theorem deviceDrain_of_enabled (h : (s.device d).service ≠ .disabled) : exec (.deviceDrain k r) s =
    .next (((s.modKiosk k KioskPort.takeGood).reply k kindDeviceDrain r .ok
      [byte (s.drainedService d).code, optByte (s.drainedService d).targetCode]).drain d) := by
  rw [exec_managed (c := .deviceDrain k r) rfl ht hr hs hu (by rw [hp]; rfl), portOperand_byte (by decide) hp]
  refine congrArg Host.Outcome.next ((if_neg h).trans ?_)
  rw [hp, drainFields_byte, drain_service]
  rfl

end

/-! ### The effect of a resume (R15) -/

theorem refusesResume_iff (st : ServiceState) :
    st.refusesResume = true ↔ st = .disabled ∨ st = .draining ∨ st = .fault .draining := by
  cases st with
  | fault t => cases t <;> simp [ServiceState.refusesResume]
  | _ => simp [ServiceState.refusesResume]

section
variable (ht : s.takes k kindDeviceResume r = true) (hr : (s.kiosk k).replyRoom = true)
  (hs : service r.channel = serviceManage) (hu : (s.kiosk k).unlocked = true) (hp : r.payload = [byte d.val])
include ht hr hs hu hp

theorem deviceResume_taken : exec (.deviceResume k r) s =
    .next (if (s.device d).service.refusesResume = true then
        (s.modKiosk k KioskPort.takeGood).reply k kindDeviceResume r .badState []
      else ((s.modKiosk k KioskPort.takeGood).reply k kindDeviceResume r .ok []).resume d) := by
  rw [exec_managed (c := .deviceResume k r) rfl ht hr hs hu (by rw [hp]; rfl), portOperand_byte (by decide) hp]
  rfl

theorem deviceResume_of_ok (h : (s.device d).service.refusesResume = false) : exec (.deviceResume k r) s =
    .next (((s.modKiosk k KioskPort.takeGood).reply k kindDeviceResume r .ok []).resume d) := by
  rw [deviceResume_taken ht hr hs hu hp, if_neg (Bool.eq_false_iff.mp h)]

end

theorem resume_of_offline (h : (s.device d).service = .offline) : s.resume d = s.becomeOnline d := by
  unfold State.resume
  rw [h]

theorem resume_of_faultOffline (h : (s.device d).service = .fault .offline) :
    s.resume d = s.setDevice d { s.device d with service := .fault .online } := by
  unfold State.resume
  rw [h]
  rfl

theorem resume_of_other (h : (s.device d).service ≠ .offline) (h' : (s.device d).service ≠ .fault .offline) :
    s.resume d = s := by
  unfold State.resume
  split
  · contradiction
  · contradiction
  · rfl

/-- Settles O48. -/
theorem drainAndResume : Obligations.DrainAndResume := by
  refine ⟨fun s k r d ht hr hs hu hp => ?_, fun s k r n hr hs hu hp hn => ?_, fun s k r d ht hr hs hu hp => ?_⟩
  · intro G D answer put
    have key : ∀ st, s.drainedService d = st → D.service ≠ .disabled → exec (.deviceDrain k r) s =
        .next ((answer (byte st.code) (optByte st.targetCode)).drain d) := fun st hst h => by
      rw [deviceDrain_of_enabled ht hr hs hu hp h, hst]
    have kept : ∀ st, D.service = st → st ≠ .online → st ≠ .fault .online → st ≠ .disabled →
        exec (.deviceDrain k r) s = .next (answer (byte st.code) (optByte st.targetCode)) := fun st h ho hf hd => by
      subst h
      rw [key _ (drainedService_of_other ho hf) hd]
      exact congrArg Host.Outcome.next (drain_of_other (s := answer _ _) ho hf)
    have moved : ∀ st c b, s.drainedService d = st → drainsInPlace s d → (answer c b).drain d = put (answer c b) st :=
      fun st c b hst h => hst ▸ drain_of_drainsInPlace (s := answer c b) h
    refine ⟨deviceDrain_of_disabled ht hr hs hu hp, fun h => ?_, fun h => ?_, fun h hc hw => ?_, fun h hc hw => ?_,
      fun h hw => ?_, fun h hw => ?_, fun h => ?_, fun h => ?_, fun h hc => ⟨_, key .offline
        (drainedService_of_touch h hc) (by simp [h]), ?_, ?_⟩⟩
    · exact kept .offline h nofun nofun nofun
    · exact kept .draining h nofun nofun nofun
    · have hst := (drainedService_of_online h hc).trans (if_pos hw)
      rw [key _ hst (by simp [h]), moved _ _ _ hst (.inl ⟨h, hc⟩)]
      rfl
    · have hst := (drainedService_of_online h hc).trans (if_neg (Bool.eq_false_iff.mp hw))
      rw [key _ hst (by simp [h]), moved _ _ _ hst (.inl ⟨h, hc⟩)]
      rfl
    · have hst := (drainedService_of_faultOnline h).trans (if_pos hw)
      rw [key _ hst (by simp [h]), moved _ _ _ hst (.inr h)]
      rfl
    · have hst := (drainedService_of_faultOnline h).trans (if_neg (Bool.eq_false_iff.mp hw))
      rw [key _ hst (by simp [h]), moved _ _ _ hst (.inr h)]
      rfl
    · exact kept (.fault .draining) h nofun nofun nofun
    · exact kept (.fault .offline) h nofun nofun nofun
    · rw [drain_of_touch (s := answer _ _) h hc, leaveOnline_device]
      rfl
    · intro enabled
      rw [drain_of_touch (s := answer _ _) h hc]
      unfold State.leaveOnline State.releasePanels
      rw [polledPanels_of_touch (s := answer _ _) hc h]
      rfl
  · intro G
    refine ⟨fun ht => ?_, fun ht => ?_⟩
    · rw [exec_managed (c := .deviceDrain k r) rfl ht hr hs hu (by rw [hp]; rfl), portOperand_of_ge hp hn]
      exact congrArg Host.Outcome.next (refuse_drain_of_ge hp hn _)
    · rw [exec_managed (c := .deviceResume k r) rfl ht hr hs hu (by rw [hp]; rfl), portOperand_of_ge hp hn]
      rfl
  · intro G D T
    refine ⟨fun h => ?_, fun h => ?_, fun h => ?_, fun h => ?_⟩
    · rw [deviceResume_taken ht hr hs hu hp, if_pos ((refusesResume_iff _).mpr h)]
    · have hstays : D.service ≠ .offline ∧ D.service ≠ .fault .offline := by rcases h with h | h <;> simp [h]
      rw [deviceResume_of_ok ht hr hs hu hp (by rcases h with h | h <;> rw [h] <;> rfl)]
      exact congrArg Host.Outcome.next (resume_of_other (s := T) hstays.1 hstays.2)
    · rw [deviceResume_of_ok ht hr hs hu hp (by rw [h]; rfl)]
      exact congrArg Host.Outcome.next (resume_of_faultOffline (s := T) h)
    · rw [deviceResume_of_ok ht hr hs hu hp (by rw [h]; rfl)]
      exact congrArg Host.Outcome.next (resume_of_offline (s := T) h)

end Sys2Proof.Machine
end

section
/-! Proofs about DEVICE_RESET and DEVICE_BREAK (sections 1.8, 6.9, 10.4, 10.9). -/

namespace Sys2Proof.Machine

variable {s : State} {k : KioskId} {r : Request} {d : DeviceId}

/-! ### A decided ending leaves the device ports their records and causes (R7, R8) -/

theorem stopWork_record (kind : JobKind) (reason : EndReason) (p : DevicePort) :
    (p.stopWork kind reason).record = p.record ∧ (p.stopWork kind reason).causes = p.causes := by
  cases kind <;> exact ⟨rfl, rfl⟩

theorem dropJob_causes (i : JobId) (j : Job) (reason : EndReason) (p : DevicePort) :
    (p.dropJob i j reason).record = p.record ∧ (p.dropJob i j reason).causes = p.causes := by
  by_cases h : j.state = .active
  · rw [dropJob_of_active h]
    exact stopWork_record j.kind reason _
  · rw [dropJob_of_not_active h]
    exact ⟨rfl, rfl⟩

theorem setDevice_kept {e : DeviceId} {p : DevicePort}
    (h : p.record = (s.device e).record ∧ p.causes = (s.device e).causes) (d : DeviceId) :
    ((s.setDevice e p).device d).record = (s.device d).record ∧
      ((s.setDevice e p).device d).causes = (s.device d).causes := by
  rw [setDevice_device]
  split
  · next he => rw [he]; exact h
  · exact ⟨rfl, rfl⟩

theorem endJob_kept (s : State) (i : JobId) (reason : EndReason) (d : DeviceId) :
    ((s.endJob i reason).device d).record = (s.device d).record ∧
      ((s.endJob i reason).device d).causes = (s.device d).causes := by
  cases hj : s.job i with
  | none => rw [endJob_of_free hj]; exact ⟨rfl, rfl⟩
  | some j =>
    rw [table_of_devices (endJob_devices hj reason)]
    exact setDevice_kept (dropJob_causes i j reason _) d

theorem decideEnd_kept (s : State) (i : JobId) (reason : EndReason) (d : DeviceId) :
    ((s.decideEnd i reason).device d).record = (s.device d).record ∧
      ((s.decideEnd i reason).device d).causes = (s.device d).causes := by
  cases hj : s.job i with
  | none => rw [decideEnd_of_free hj]; exact ⟨rfl, rfl⟩
  | some j =>
    by_cases hh : j.held = none
    · rw [decideEnd_of_live hj hh]
      split
      · rw [setJob_device]
        exact setDevice_kept (p := (s.device j.device).letScanGo reason) ⟨rfl, rfl⟩ d
      · exact endJob_kept s i reason d
    · rw [decideEnd_of_held hj hh]; exact ⟨rfl, rfl⟩

/-! ### The ACTIVE job of a port -/

theorem active_of_activeJob {i : JobId} {j : Job} (h : s.activeJob d = some i) (hj : s.job i = some j) :
    j.state = .active := by
  have hfound := List.find?_some h
  rw [hj] at hfound
  exact of_decide_eq_true hfound

/-! ### The effect of a device reset (R24, R103, R160) -/

/-- R24: the ACTIVE job's ending is decided first. -/
def State.activeReset (s : State) (d : DeviceId) : State :=
  match s.activeJob d with
  | some i => s.decideEnd i .failedDeviceReset
  | none => s

theorem activeReset_of_none (h : s.activeJob d = none) : s.activeReset d = s := by
  unfold State.activeReset
  rw [h]

theorem activeReset_of_some {i : JobId} (h : s.activeJob d = some i) :
    s.activeReset d = s.decideEnd i .failedDeviceReset := by
  unfold State.activeReset
  rw [h]

theorem activeReset_kept (s : State) (d e : DeviceId) :
    ((s.activeReset d).device e).record = (s.device e).record ∧
      ((s.activeReset d).device e).causes = (s.device e).causes := by
  unfold State.activeReset
  split
  · exact decideEnd_kept s _ _ e
  · exact ⟨rfl, rfl⟩

theorem resetDevice_of_touch (h : (s.device d).record.cls = .touch) : s.resetDevice d =
    ((((s.activeReset d).modDevice d DevicePort.resetEngine).releasePanels (s.namedPanels d)).restartPanels
      (s.namedPanels d)) := if_pos h

theorem resetDevice_of_other (h : (s.device d).record.cls ≠ .touch) :
    s.resetDevice d = (s.activeReset d).modDevice d DevicePort.resetEngine := if_neg h

theorem resetEngine_eq {p : DevicePort} {x : DeviceRecord} (h : p.record = x) :
    p.resetEngine = DevicePort.restartAtn { p with
      service := if x.cls = .unused then .disabled else .offline, holding := none, shift := none,
      brk := .none, lineHeld := false, underrun := .stopped, faultLimit := .stopped, scan := ScanEngine.idle,
      poller := Poller.idle } := by
  subst h
  rfl

theorem resetDevice_eq {A : State} (hA : s.activeReset d = A) : s.resetDevice d =
    let B := A.setDevice d (DevicePort.restartAtn { A.device d with
      service := if (s.device d).record.cls = .unused then .disabled else .offline, holding := none, shift := none,
      brk := .none, lineHeld := false, underrun := .stopped, faultLimit := .stopped, scan := ScanEngine.idle,
      poller := Poller.idle })
    if (s.device d).record.cls = .touch then ((s.namedPanels d).foldl State.releasePanel B).restartPanels (s.namedPanels d)
    else B := by
  subst hA
  rw [← resetEngine_eq (activeReset_kept s d d).1]
  rfl

theorem resetDevice_device (s : State) (d : DeviceId) :
    (s.resetDevice d).device d = ((s.activeReset d).device d).resetEngine := by
  by_cases h : (s.device d).record.cls = .touch
  · rw [resetDevice_of_touch h, table_of_devices (restartPanels_devices _ _),
      table_of_devices (releasePanels_touched _ _).devices, modDevice_device_self]
  · rw [resetDevice_of_other h, modDevice_device_self]

theorem resetDevice_job (s : State) (d : DeviceId) (i : JobId) : (s.resetDevice d).job i = (s.activeReset d).job i := by
  by_cases h : (s.device d).record.cls = .touch
  · rw [resetDevice_of_touch h, table_of_jobs (restartPanels_jobs _ _), table_of_jobs (releasePanels_touched _ _).jobs]
    rfl
  · rw [resetDevice_of_other h]
    rfl

theorem resetDevice_panel {p : PanelId} (h : (s.device d).record.cls = .touch) (hp : (s.panel p).device = d) :
    ((s.resetDevice d).panel p).presence = .unknown ∧ ((s.resetDevice d).panel p).missRun = 0 := by
  rw [resetDevice_of_touch h, restartPanels_panel, if_pos (mem_namedPanels.mpr hp)]
  exact ⟨rfl, rfl⟩

/-- What a reset of the engine leaves of the port, its ATN level apart. -/
theorem resetEngine_frame (p : DevicePort) : p.resetEngine = { p with
    service := p.record.restState, holding := none, shift := none, brk := .none, lineHeld := false,
    underrun := .stopped, faultLimit := .stopped, scan := ScanEngine.idle, poller := Poller.idle,
    atn := p.resetEngine.atn, blanking := p.resetEngine.blanking } := restartAtn_frame _

/-- The ending that a reset decides for the port's ACTIVE job. -/
theorem activeReset_active {i : JobId} {j : Job} (ha : s.activeJob d = some i) (hj : s.job i = some j)
    (hd : j.device = d) :
    (j.held ≠ none → (s.activeReset d).job i = some j ∧ ((s.activeReset d).device d).queue = (s.device d).queue) ∧
      (j.held = none → j.kind = .scan ∧ s.frameOnLine i →
        (s.activeReset d).job i = some { j with held := some .failedDeviceReset, paused := false } ∧
          ((s.activeReset d).device d).queue = (s.device d).queue) ∧
      (j.held = none → ¬ (j.kind = .scan ∧ s.frameOnLine i) → (s.activeReset d).job i = none ∧
        ((s.activeReset d).device d).queue = (s.device d).queue.filter fun x => x != i) := by
  subst hd
  rw [activeReset_of_some ha]
  refine ⟨fun hh => ?_, fun hh hline => ?_, fun hh hline => ?_⟩
  · rw [decideEnd_of_held hj hh]
    exact ⟨hj, rfl⟩
  · rw [decideEnd_of_live hj hh, if_pos ⟨hline.1, active_of_activeJob ha hj, hline.2⟩, setJob_job_self, setJob_device,
      modDevice_device_self]
    exact ⟨rfl, rfl⟩
  · rw [decideEnd_of_live hj hh, if_neg fun x => hline ⟨x.1, x.2.2⟩]
    exact ⟨endJob_free s i _, endJob_queue hj _⟩

/-- A REPLY and the taking of its request leave the line of every port. -/
theorem reply_lines (s : State) (k n : KioskId) (kind : Byte) (r : Request) (status : Status) (fields : List Byte) :
    let A := (s.modKiosk k KioskPort.takeGood).reply k kind r status fields
    (A.kiosk n).line = (s.kiosk n).line ∧ (A.kiosk n).source = (s.kiosk n).source := by
  intro A
  by_cases h : n = k
  · rw [h]
    exact reply_line s k kind r status fields
  · have hother : A.kiosk n = s.kiosk n := (modKiosk_kiosk_of_ne _ _ _ _ h).trans (modKiosk_kiosk_of_ne _ _ _ _ h)
    rw [hother]
    exact ⟨rfl, rfl⟩

theorem deviceReset_taken (ht : s.takes k kindDeviceReset r = true) (hr : (s.kiosk k).replyRoom = true)
    (hs : service r.channel = serviceManage) (hu : (s.kiosk k).unlocked = true) (hp : r.payload = [byte d.val]) :
    exec (.deviceReset k r) s =
      .next (((s.modKiosk k KioskPort.takeGood).reply k kindDeviceReset r .ok []).resetDevice d) := by
  rw [exec_managed (c := .deviceReset k r) rfl ht hr hs hu (by rw [hp]; rfl), portOperand_byte (by decide) hp]

/-- Settles O49. -/
theorem deviceResetAndBreak : Obligations.DeviceResetAndBreak := by
  refine ⟨fun s k r n ht hr hs hu hp hn => ?_, fun s k r d ht hr hs hu hp =>
    ⟨_, deviceReset_taken ht hr hs hu hp, ?_⟩, fun s k r n ht hr hs hu hp => ?_⟩
  · rw [exec_managed (c := .deviceReset k r) rfl ht hr hs hu (by rw [hp]; rfl), portOperand_of_ge hp hn]
    rfl
  · let R := (s.modKiosk k KioskPort.takeGood).reply k kindDeviceReset r .ok []
    obtain ⟨hrecord, hcauses⟩ := activeReset_kept R d d
    have hdevice : (R.resetDevice d).device d = _ := (resetDevice_device R d).trans (resetEngine_frame _)
    have hqueue : ((R.resetDevice d).device d).queue = ((R.activeReset d).device d).queue :=
      (congrArg DevicePort.queue hdevice :)
    refine ⟨?_, (congrArg DevicePort.record hdevice).trans hrecord, (congrArg DevicePort.causes hdevice).trans hcauses,
      (congrArg DevicePort.service hdevice).trans ((congrArg DeviceRecord.restState hrecord).trans (restState_eq _)),
      (congrArg DevicePort.holding hdevice :), (congrArg DevicePort.shift hdevice :), (congrArg DevicePort.brk hdevice :),
      (congrArg DevicePort.sentBits hdevice :), (congrArg DevicePort.restLevel hdevice :),
      (congrArg DevicePort.lineHeld hdevice :), (congrArg DevicePort.underrun hdevice :),
      (congrArg DevicePort.faultLimit hdevice :), (congrArg DevicePort.scan hdevice :),
      (congrArg DevicePort.poller hdevice :), fun hnone => ?_, fun i j ha hj hd => ?_,
      fun hc p hp => resetDevice_panel (s := R) hc hp⟩
    · intro D R A B panels
      refine resetDevice_eq (s := R) (A := A) ?_
      dsimp only [A]
      cases ha : s.activeJob d with
      | none => exact activeReset_of_none (s := R) ha
      | some i => exact activeReset_of_some (s := R) ha
    · rw [hqueue, activeReset_of_none (s := R) hnone]
      rfl
    · intro onLine
      have hlines : (R.kiosk (jobKiosk i)).line = _ ∧ (R.kiosk (jobKiosk i)).source = _ :=
        reply_lines s k (jobKiosk i) kindDeviceReset r .ok []
      obtain ⟨hheld, hline, hoff⟩ := activeReset_active (s := R) ha hj hd
      have honLine : onLine ↔ j.kind = .scan ∧ R.frameOnLine i = true := by
        rw [frameOnLine_iff, hlines.1, hlines.2]
      rw [hqueue, resetDevice_job, honLine]
      exact ⟨hheld, hline, hoff⟩
  · intro G
    have hexec := exec_managed (c := .deviceBreak k r) rfl ht hr hs hu (by rw [hp]; rfl)
    refine ⟨fun hn => ?_, fun d hd => ⟨fun h => ?_, fun h hb => ?_, fun h hb => ?_⟩⟩
    · rw [hexec, portOperand_of_ge hp hn]
      rfl
    · rw [hexec, portOperand_of_eq hp hd]
      exact congrArg Host.Outcome.next (if_pos h)
    · rw [hexec, portOperand_of_eq hp hd]
      exact congrArg Host.Outcome.next ((if_neg (not_not_intro h)).trans (if_pos hb))
    · rw [hexec, portOperand_of_eq hp hd]
      refine congrArg Host.Outcome.next ((if_neg (not_not_intro h)).trans ((if_neg (not_not_intro hb)).trans ?_))
      refine congrArg (State.setDevice _ d) ?_
      show DevicePort.sendBreak (s.device d) = _
      unfold DevicePort.sendBreak
      simp only [Option.isNone_iff_eq_none]

end Sys2Proof.Machine
end

section
/-! Proofs about the start of a transmission on a kiosk line (sections 8.3, 8.4, 9.1). -/

namespace Sys2Proof.Machine

variable {s : State} {k : KioskId} {c : ContactIx} {b : Binding} {cs : List ContactIx}

/-! ### The arbiter (R134, R136) -/

theorem mayTransmit_iff (s : State) (k : KioskId) : s.mayTransmit k = true ↔
    s.starting = false ∧ (s.kiosk k).link ≠ .isolated ∧ (s.kiosk k).line = .idle := by
  simp [State.mayTransmit, and_assoc]

theorem transmitStart_of_not (h : ¬ (s.starting = false ∧ (s.kiosk k).link ≠ .isolated ∧ (s.kiosk k).line = .idle)) :
    exec (.transmitStart k) s = .next s :=
  congrArg Host.Outcome.next (if_neg fun e => h ((mayTransmit_iff s k).mp e))

theorem transmitStart_of_idle (hs : s.starting = false) (hl : (s.kiosk k).link ≠ .isolated)
    (hline : (s.kiosk k).line = .idle) : exec (.transmitStart k) s = .next (s.arbitrate k) :=
  congrArg Host.Outcome.next (if_pos ((mayTransmit_iff s k).mpr ⟨hs, hl, hline⟩))

theorem arbitrate_of_echo (h : (s.kiosk k).echoPending = true) :
    s.arbitrate k = s.setKiosk k { s.kiosk k with echoPending := false, line := .brk } := if_pos h

theorem arbitrate_of_touch (h : (s.kiosk k).echoPending = false) {e : TouchEntry} {rest : List TouchEntry}
    (ht : (s.kiosk k).touch = e :: rest) : s.arbitrate k = s.startTouch k e rest := by
  unfold State.arbitrate
  rw [h, ht]
  rfl

theorem arbitrate_of_control (h : (s.kiosk k).echoPending = false) (ht : (s.kiosk k).touch = []) {e : ControlEntry}
    {rest : List ControlEntry} (hc : (s.kiosk k).control = e :: rest) : s.arbitrate k = s.startControl k e rest := by
  unfold State.arbitrate
  rw [h, ht, hc]
  rfl

theorem arbitrate_of_empty (h : (s.kiosk k).echoPending = false) (ht : (s.kiosk k).touch = [])
    (hc : (s.kiosk k).control = []) :
    s.arbitrate k = match s.scanChoice k with | some slot => s.startScan k slot | none => s := by
  unfold State.arbitrate
  rw [h, ht, hc]
  rfl

/-! ### Which slot has a block to deliver (R83) -/

theorem deliverable_iff (j : Job) (ph : Phase) : j.deliverable ph = true ↔ ∃ b rest, j.allocation = b :: rest ∧
    (128 ≤ j.received - j.sent ∨ (rest = [] ∧ ph = .delivery)) := by
  unfold Job.deliverable
  cases j.allocation with
  | nil => simp
  | cons b rest =>
    cases rest with
    | nil =>
      simp [Job.undelivered]
      exact or_congr_left decide_eq_true_iff
    | cons b' rest =>
      simp [Job.undelivered]
      exact decide_eq_true_iff

theorem scanOffer_iff (s : State) (k : KioskId) (slot : SlotId) : s.scanOffer k slot = true ↔ ∃ j b rest,
    s.job (jobIx k slot) = some j ∧ j.kind = .scan ∧ j.state = .active ∧ j.held = none ∧ j.allocation = b :: rest ∧
      (128 ≤ j.received - j.sent ∨ (rest = [] ∧ (s.device j.device).scan.phase = .delivery)) := by
  unfold State.scanOffer
  cases hj : s.job (jobIx k slot) with
  | none => simp
  | some j => simp [deliverable_iff, and_assoc]

/-! ### Owed UPs (R132) -/

theorem placeOwed_of_not (h : ∀ b, s.contact c = .bound b →
    ¬ (b.upOwed = true ∧ b.owner = k ∧ (s.kiosk k).touch.length < 4)) : s.placeOwed k (c :: cs) = s.placeOwed k cs := by
  rw [State.placeOwed]
  split
  · next b hb => exact if_neg (h b hb)
  · rfl

theorem placeOwed_of_owed (h : s.contact c = .bound b) (ho : b.upOwed = true) (hk : b.owner = k)
    (hroom : (s.kiosk k).touch.length < 4) : s.placeOwed k (c :: cs) =
      ((s.modKiosk k fun p => { p with touch := p.touch ++ [b.upEntry c] }).setContact c .free).placeOwed k cs := by
  rw [State.placeOwed, h]
  exact if_pos ⟨ho, hk, hroom⟩

theorem upEntry_of_last {l : Nat × Nat} (h : b.last = some l) :
    b.upEntry c = { contact := c, zone := b.zone, kind := .up, kx := l.1, ky := l.2 } := by
  unfold Binding.upEntry
  rw [h]
  rfl

theorem placeOwed_of_none (h : ∀ c b, s.contact c = .bound b → b.owner = k → b.upOwed = false) :
    s.placeOwed k cs = s := by
  induction cs with
  | nil => rfl
  | cons c rest ih => rw [placeOwed_of_not fun b hb ho => by simp [h c b hb ho.2.1] at ho, ih]

/-! ### Characters and levels of the pair (R138) -/

theorem linkCharBits_eq (c : Byte) : linkCharBits c = [false, c.getLsbD 0, c.getLsbD 1, c.getLsbD 2, c.getLsbD 3,
    c.getLsbD 4, c.getLsbD 5, c.getLsbD 6, c.getLsbD 7, true] := rfl

theorem restLevel_eq (p : KioskPort) : p.restLevel =
    match p.line with | .brk => false | .idle => true | .frame => true | .gap => true := by
  unfold KioskPort.restLevel
  cases p.line <;> rfl

theorem controlFrame_jobEnd (s : State) (ch : Byte) (slot : SlotId) (reason : EndReason) (count : Nat) (le : Bool) :
    s.controlFrame (.jobEnd ch slot reason count le) = frameBytes ch 0x82#8 0#8
      ([byte slot.val, reason.code] ++ be24 count ++ [if le then 1#8 else 0#8]) := by
  rw [← byte_bitValue_zero]
  rfl

theorem startScan_of_live {slot : SlotId} {j : Job} (h : s.job (jobIx k slot) = some j) :
    s.startScan k slot = s.setKiosk k { s.kiosk k with
      line := .frame, source := .scan slot, afterFrame := .nothing, scanLast := slot, onLine := s.scanFrame slot j } := by
  unfold State.startScan
  rw [h]
  rfl

/-- Settles O50. -/
theorem transmitStarts : Obligations.TransmitStarts := by
  refine ⟨fun s k => ?_, fun s ch tag kind st f a => rfl, fun s ch slot limit => rfl, controlFrame_jobEnd,
    fun s => rfl, scanOffer_iff, fun s k h => placeOwed_of_none fun c b hb hk => h c b hb hk, rfl, by decide, by decide,
    by decide, fun p => ⟨rfl, restLevel_eq p⟩, fun s k c cs => ⟨rfl, fun h => ?_, fun b l hb ho hk hl hroom => ?_⟩⟩
  · intro p
    refine ⟨fun h => transmitStart_of_not ?_, fun hs hl hline => ?_⟩
    · rintro ⟨hs, hl, hline⟩
      rcases h with h | h | h
      · exact Bool.false_ne_true (hs.symm.trans h)
      · exact hl h
      · exact h hline
    · rw [transmitStart_of_idle hs hl hline]
      refine ⟨fun h => ?_, fun h e rest ht => ?_, fun h ht e rest hc => ?_, fun h ht hc slot j hslot hj => ?_,
        fun h ht hc hnone => ?_⟩
      · rw [arbitrate_of_echo h]
      · rw [arbitrate_of_touch h ht]
        rfl
      · rw [arbitrate_of_control h ht hc]
        rfl
      · have hchoice : s.scanChoice k = some slot := hslot
        rw [arbitrate_of_empty h ht hc, hchoice]
        refine congrArg Host.Outcome.next ((startScan_of_live hj).trans ?_)
        unfold State.scanFrame
        cases j.allocation <;> rfl
      · have hchoice : s.scanChoice k = none := hnone
        rw [arbitrate_of_empty h ht hc, hchoice]
  · refine placeOwed_of_not fun b hb ho => ?_
    rcases h with h | h
    · rcases h b hb with h | h
      · simp [ho.1] at h
      · exact h ho.2.1
    · omega
  · rw [placeOwed_of_owed hb ho hk hroom, upEntry_of_last hl]
    rfl

end Sys2Proof.Machine
end

section
/-! Proofs about the end of a transmission on a kiosk line (sections 3.5, 5.4, 5.5, 8.4). -/

namespace Sys2Proof.Machine

variable {s : State} {k : KioskId} {i : JobId} {j : Job}

/-! ### A grant pass leaves scan jobs alone (R45) -/

theorem grantTo_of_no_block (h : s.free = []) (n : JobId) : s.grantTo n = s := by
  unfold State.grantTo
  rw [h]

theorem grantTo_job_of_scan (hj : s.job i = some j) (hk : j.kind = .scan) {n : JobId} (hn : s.qualifies n = true) :
    (s.grantTo n).job i = some j := by
  obtain ⟨x, hx, hprint, -⟩ := (qualifies_iff s n).mp hn
  cases hf : s.free with
  | nil => rw [grantTo_of_no_block hf, hj]
  | cons b rest =>
    have hne : i ≠ n := fun e => by
      rw [e, hx] at hj
      rw [Option.some.inj hj, hk] at hprint
      cases hprint
    rw [table_of_jobs (grantTo_fields hf hx).1, setJob_job_of_ne _ _ _ _ hne, hj]

theorem grantLoop_job_of_scan (hj : s.job i = some j) (hk : j.kind = .scan) (n : Nat) :
    (s.grantLoop n).job i = some j := by
  induction n generalizing s with
  | zero => exact hj
  | succ n ih =>
    cases hnext : s.nextQualifying with
    | none => rw [State.grantLoop, hnext]; exact hj
    | some m =>
      rw [grantLoop_grantTo hnext]
      exact ih (grantTo_job_of_scan hj hk (nextQualifying_qualifies s hnext))

theorem grantPass_job_of_scan (hj : s.job i = some j) (hk : j.kind = .scan) : s.grantPass.job i = some j :=
  grantLoop_job_of_scan hj hk _

/-! ### The watermark (R79, R81) -/

theorem evalWatermark_of_free (h : s.job i = none) : s.evalWatermark i = s := by
  unfold State.evalWatermark
  rw [h]

theorem evalWatermark_of_live (h : s.job i = some j) : s.evalWatermark i = s.modDevice j.device fun p =>
    if p.scan.phase = .none then p
    else
      ({ p with scan := { p.scan with
          watermark := evalWatermark p.record p.scan.watermark j.allocation.length } }).reviseGap j.paused := by
  unfold State.evalWatermark
  rw [h]

theorem evalWatermark_jobs (s : State) (i : JobId) : (s.evalWatermark i).jobs = s.jobs := by
  unfold State.evalWatermark
  split <;> rfl

theorem reviseGap_eq (p : DevicePort) (paused : Bool) : p.reviseGap paused = { p with scan := { p.scan with
    gap := if p.scan.gap = .stopped then .stopped
      else if paused = true ∨ (p.record.holdMode = .auto ∧ p.scan.watermark = true) then .suspended
      else .running p.record.endGap } } := by
  have hheld : p.gapHeld paused = true ↔ paused = true ∨ (p.record.holdMode = .auto ∧ p.scan.watermark = true) := by
    simp [DevicePort.gapHeld]
  unfold DevicePort.reviseGap
  by_cases h : p.scan.gap = .stopped
  · rw [if_pos h, if_pos h, ← h]
  · rw [if_neg h, if_neg h]
    simp only [hheld]

theorem evalWatermark_of_phase_none (hj : s.job i = some j) (h : (s.device j.device).scan.phase = .none) :
    s.evalWatermark i = s := by
  rw [evalWatermark_of_live hj]
  exact (congrArg (s.setDevice j.device) (if_pos h)).trans (setDevice_same s j.device)

theorem evalWatermark_of_phase (hj : s.job i = some j) (h : (s.device j.device).scan.phase ≠ .none) :
    let P := s.device j.device
    let clear := if P.record.holdClear < P.record.holdSet then P.record.holdClear else P.record.holdSet - 1
    let mark := if P.record.holdSet ≤ j.allocation.length then true
      else if j.allocation.length ≤ clear then false else P.scan.watermark
    s.evalWatermark i = s.setDevice j.device { P with scan := { P.scan with
      watermark := mark,
      gap := if P.scan.gap = .stopped then .stopped
        else if j.paused = true ∨ (P.record.holdMode = .auto ∧ mark = true) then .suspended
        else .running P.record.endGap } } := by
  rw [evalWatermark_of_live hj]
  refine congrArg (s.setDevice j.device) ((if_neg h).trans ?_)
  rw [reviseGap_eq]
  rfl

/-! ### A block delivered (R52, R83) -/

theorem dropHead_of_scan {b : BlockId} {rest : List BlockId} (hk : j.kind = .scan) (ha : j.allocation = b :: rest) :
    j.dropHead = { j with allocation := rest } := by
  unfold Job.dropHead
  rw [hk, ha]
  rfl

theorem freeHead_of_scan {b : BlockId} {rest : List BlockId} (hj : s.job i = some j) (hk : j.kind = .scan)
    (ha : j.allocation = b :: rest) : s.freeHead i =
      (((s.setJob i (some { j with allocation := rest })).setFree (s.free ++ [b])).evalTight) := by
  unfold State.freeHead
  rw [hj]
  dsimp only
  rw [ha, ← dropHead_of_scan hk ha]
  rfl

theorem modJob_of_live {f : Job → Job} (hj : s.job i = some j) : s.modJob i f = s.setJob i (some (f j)) := by
  unfold State.modJob
  rw [hj]

theorem deliverHead_of_scan {b : BlockId} {rest : List BlockId} (hj : s.job i = some j) (hk : j.kind = .scan)
    (ha : j.allocation = b :: rest) :
    s.deliverHead i = (((((s.setJob i (some { j with allocation := rest })).setFree (s.free ++ [b])).evalTight).setJob i
      (some { j with allocation := rest, sent := j.sent + min 128 (j.received - j.sent) })).evalWatermark i).grantPass := by
  have hfreed : ((((s.setJob i (some { j with allocation := rest })).setFree (s.free ++ [b])).evalTight).job i) =
      some { j with allocation := rest } := by
    rw [evalTight_job, setFree_job, setJob_job_self]
  unfold State.deliverHead
  rw [hj]
  dsimp only
  rw [freeHead_of_scan hj hk ha, modJob_of_live hfreed]
  rfl

theorem deliverHead_job_of_scan {b : BlockId} {rest : List BlockId} (hj : s.job i = some j) (hk : j.kind = .scan)
    (ha : j.allocation = b :: rest) : (s.deliverHead i).job i =
      some { j with allocation := rest, sent := j.sent + min 128 (j.received - j.sent) } := by
  rw [deliverHead_of_scan hj hk ha]
  refine grantPass_job_of_scan ?_ hk
  rw [table_of_jobs (evalWatermark_jobs _ _), setJob_job_self]

theorem endIfDelivered_of_live (hj : s.job i = some j) : s.endIfDelivered i =
    if (s.device j.device).scan.phase = .delivery ∧ j.allocation = [] then
      s.endJob i (if j.truncated then .doneTruncated else .done)
    else s := by
  unfold State.endIfDelivered
  rw [hj]

theorem scanDelivered_of_free (h : s.job i = none) : s.scanDelivered i = s := by
  unfold State.scanDelivered
  rw [h]

theorem scanDelivered_of_live (h : s.job i = some j) : s.scanDelivered i =
    (match j.held with
      | some reason => (s.deliverHead i).endJob i reason
      | none => (s.deliverHead i).endIfDelivered i).settle j.device := by
  unfold State.scanDelivered
  rw [h] <;> rfl

/-- Settles O51. -/
theorem transmitEnds : Obligations.TransmitEnds := by
  refine ⟨fun s k => ?_, fun s i => ⟨evalWatermark_of_free, fun j hj =>
    ⟨evalWatermark_of_phase_none hj, evalWatermark_of_phase hj⟩⟩, fun s k =>
    ⟨fun h => congrArg Host.Outcome.next (if_pos h), fun h => congrArg Host.Outcome.next (if_neg h),
      fun h => congrArg Host.Outcome.next (if_pos h), fun h => congrArg Host.Outcome.next (if_neg h)⟩⟩
  · intro p E
    refine ⟨fun h => congrArg Host.Outcome.next (if_neg h), fun hl h => ?_, fun slot hl hs hj => ?_,
      fun slot j b rest hl hs hj hk ha => ⟨E.deliverHead (jobIx k slot), deliverHead_job_of_scan (s := E) hj hk ha,
        deliverHead_of_scan (s := E) hj hk ha, ?_⟩⟩
    · rw [frameTransmitEnd_of_frame hl]
      rcases h with h | h | ⟨h, h'⟩
      · rw [h]; rfl
      · rw [h]; rfl
      · rw [h, h']; rfl
    · rw [frameTransmitEnd_of_frame hl, hs]
      exact congrArg Host.Outcome.next (scanDelivered_of_free (s := E) hj)
    · rw [frameTransmitEnd_of_frame hl, hs]
      refine congrArg Host.Outcome.next ((scanDelivered_of_live (s := E) hj).trans ?_)
      cases j.held with
      | some reason => rfl
      | none => exact congrArg (State.settle · j.device) (endIfDelivered_of_live (deliverHead_job_of_scan (s := E) hj hk ha))

end Sys2Proof.Machine
end

section
/-! Proofs about ATN qualification and the entry into and exit from FAULT (sections 1.6.2, 1.6.3, 5.7). -/

namespace Sys2Proof.Machine

variable {s t : State} {d : DeviceId} {i : JobId} {j : Job}

/-! ### The ACTIVE job of a port (R12) -/

theorem activeJob_congr (hq : (t.device d).queue = (s.device d).queue) (hj : t.jobs = s.jobs) :
    t.activeJob d = s.activeJob d := by
  have hjob : t.job = s.job := funext fun n => table_of_jobs hj n
  unfold State.activeJob
  rw [hq, hjob]

theorem activeJob_setDevice {p : DevicePort} (hq : p.queue = (s.device d).queue) :
    (s.setDevice d p).activeJob d = s.activeJob d :=
  activeJob_congr (by rw [setDevice_device_self, hq]) rfl

theorem modDevice_setDevice (s : State) (d : DeviceId) (p : DevicePort) (f : DevicePort → DevicePort) :
    (s.setDevice d p).modDevice d f = s.setDevice d (f p) := by
  unfold State.modDevice
  rw [setDevice_setDevice, setDevice_device_self]

/-! ### The line's level (R17) -/

theorem followAtn_of_eq (h : (s.device d).atnLine = (s.device d).atn) :
    s.followAtn d = s.modDevice d fun q => { q with blanking := .stopped } := if_pos h

theorem followAtn_of_at_once (h : (s.device d).atnLine ≠ (s.device d).atn) (h0 : (s.device d).record.atnBlanking = 0) :
    s.followAtn d = s.qualify d (s.device d).atnLine :=
  (if_neg h).trans (if_pos ((blankingMs_eq_zero_iff _).mpr h0))

theorem followAtn_of_blanking (h : (s.device d).atnLine ≠ (s.device d).atn) (h0 : (s.device d).record.atnBlanking ≠ 0) :
    s.followAtn d = match (s.device d).blanking with
      | .stopped => s.modDevice d fun q => { q with blanking := .running (blankingMs (s.device d).record.atnBlanking) }
      | _ => s :=
  (if_neg h).trans (if_neg (mt (blankingMs_eq_zero_iff _).mp h0))

theorem followAtn_of_stopped (h : (s.device d).atnLine ≠ (s.device d).atn) (h0 : (s.device d).record.atnBlanking ≠ 0)
    (hb : (s.device d).blanking = .stopped) : s.followAtn d =
      s.modDevice d fun q => { q with blanking := .running (blankingMs (s.device d).record.atnBlanking) } := by
  rw [followAtn_of_blanking h h0, hb]

theorem followAtn_of_going_on (h : (s.device d).atnLine ≠ (s.device d).atn) (h0 : (s.device d).record.atnBlanking ≠ 0)
    (hb : (s.device d).blanking ≠ .stopped) : s.followAtn d = s := by
  rw [followAtn_of_blanking h h0]
  split
  · contradiction
  · rfl

theorem atnBlankingExpiry_of_running {n : Nat} (h : (s.device d).blanking = .running n) :
    exec (.atnBlankingExpiry d) s = .next (s.qualify d (s.device d).atnLine) := congrArg Host.Outcome.next (by rw [h])

theorem atnBlankingExpiry_of_other (h : ∀ n, (s.device d).blanking ≠ .running n) :
    exec (.atnBlankingExpiry d) s = .next s := by
  refine congrArg Host.Outcome.next ?_
  split
  · next n hn => exact absurd hn (h n)
  · rfl

/-! ### A new qualified level (R18, R19, R93) -/

/-- The port with its new qualified level. -/
def State.levelled (s : State) (d : DeviceId) (level : Bool) : State :=
  s.setDevice d { s.device d with atn := level, blanking := .stopped }

theorem qualify_of_online {level : Bool} (hs : (s.device d).service = .online) (hl : level = true)
    (hc : (s.device d).record.cls ≠ .touch) : s.qualify d level = (s.levelled d level).enterFault d .online := by
  subst hl
  unfold State.qualify
  rw [hs]
  exact if_neg hc

theorem qualify_of_touch {level : Bool} (hs : (s.device d).service = .online) (hl : level = true)
    (hc : (s.device d).record.cls = .touch) : s.qualify d level =
      if (s.device d).poller.running then s.levelled d level else (s.levelled d level).startRound d := by
  subst hl
  unfold State.qualify
  rw [hs]
  exact if_pos hc

theorem qualify_of_draining {level : Bool} (hs : (s.device d).service = .draining) (hl : level = true)
    (hc : (s.device d).record.cls ≠ .touch) : s.qualify d level = (s.levelled d level).enterFault d .draining := by
  subst hl
  unfold State.qualify
  rw [hs]
  exact if_neg hc

theorem qualify_of_fault {level : Bool} {target : ReturnTarget} (hs : (s.device d).service = .fault target)
    (hl : level = false) : s.qualify d level = (s.levelled d level).leaveFault d target := by
  subst hl
  unfold State.qualify
  rw [hs]
  rfl

theorem qualify_of_kept {level : Bool} (h : (s.device d).service = .disabled ∨ (s.device d).service = .offline ∨
    (((s.device d).service = .online ∨ (s.device d).service = .draining) ∧ level = false) ∨
    ((s.device d).service = .draining ∧ (s.device d).record.cls = .touch) ∨
    ((∃ target, (s.device d).service = .fault target) ∧ level = true)) : s.qualify d level = s.levelled d level := by
  unfold State.qualify
  rcases h with h | h | ⟨h | h, hl⟩ | ⟨h, hc⟩ | ⟨⟨target, h⟩, hl⟩
  · rw [h]; rfl
  · rw [h]; rfl
  · rw [h, hl]; rfl
  · rw [h, hl]; rfl
  · rw [h]
    cases level with
    | true => exact if_pos hc
    | false => rfl
  · rw [h, hl]; rfl

/-! ### FAULT (R18–R20) -/

/-- The port in FAULT, its flag set. -/
def State.faulted (s : State) (d : DeviceId) (target : ReturnTarget) : State :=
  (s.setDevice d { s.device d with service := .fault target }).raise .deviceFault

theorem faulted_device (s : State) (d : DeviceId) (target : ReturnTarget) :
    (s.faulted d target).device d = { s.device d with service := .fault target } := by
  unfold State.faulted
  rw [raise_device, setDevice_device_self]

theorem faulted_job (s : State) (d : DeviceId) (target : ReturnTarget) (n : JobId) :
    (s.faulted d target).job n = s.job n := raise_job _ _ _

theorem faulted_activeJob (s : State) (d : DeviceId) (target : ReturnTarget) :
    (s.faulted d target).activeJob d = s.activeJob d :=
  activeJob_congr (by rw [faulted_device]) (raise_jobs _ _)

theorem enterFault_eq (s : State) (d : DeviceId) (target : ReturnTarget) : s.enterFault d target =
    match (s.faulted d target).activeJob d with
    | none => s.faulted d target
    | some i =>
      match (s.faulted d target).job i with
      | none => s.faulted d target
      | some j =>
        if j.pausable ((s.faulted d target).device d).scan.phase then
          ((s.faulted d target).modDevice d DevicePort.pause).setJob i (some { j with paused := true })
        else s.faulted d target := rfl

theorem enterFault_of_none (h : s.activeJob d = none) (target : ReturnTarget) :
    s.enterFault d target = s.faulted d target := by
  rw [enterFault_eq, faulted_activeJob, h]

theorem enterFault_of_some (h : s.activeJob d = some i) (hj : s.job i = some j) (target : ReturnTarget) :
    s.enterFault d target = if j.pausable (s.device d).scan.phase then
      ((s.faulted d target).modDevice d DevicePort.pause).setJob i (some { j with paused := true })
    else s.faulted d target := by
  rw [enterFault_eq, faulted_activeJob, h]
  dsimp only
  rw [faulted_job, hj, faulted_device]

/-- A port that enters FAULT keeps the flag whether or not its job is paused. -/
theorem enterFault_fields (s : State) (d : DeviceId) (target : ReturnTarget) :
    ((s.enterFault d target).device d).service = .fault target ∧
      (s.enterFault d target).flags = (s.faulted d target).flags := by
  have hfaulted : ((s.faulted d target).device d).service = .fault target := congrArg _ (faulted_device s d target)
  rw [enterFault_eq]
  split
  · exact ⟨hfaulted, rfl⟩
  · split
    · exact ⟨hfaulted, rfl⟩
    · split
      · refine ⟨?_, rfl⟩
        rw [setJob_device, modDevice_device_self]
        exact hfaulted
      · exact ⟨hfaulted, rfl⟩

theorem pausable_iff (j : Job) (ph : Phase) : j.pausable ph = true ↔ j.kind = .print ∨ ph = .reception := by
  unfold Job.pausable
  cases j.kind <;> simp

theorem unpause_eq (p : DevicePort) : p.unpause = { p with
    faultLimit := .stopped,
    scan := { p.scan with
      firstByte := if p.scan.firstByte = .suspended then .running p.record.firstByteTimeout else p.scan.firstByte,
      gap := if p.scan.gap = .stopped then .stopped
        else if p.record.holdMode = .auto ∧ p.scan.watermark = true then .suspended
        else .running p.record.endGap } } := by
  unfold DevicePort.unpause
  rw [reviseGap_eq]
  simp

/-- The port at its return target. -/
def State.restored (s : State) (d : DeviceId) (target : ReturnTarget) : State :=
  s.setDevice d { (s.device d).unpause with service := target.state }

theorem restored_activeJob (s : State) (d : DeviceId) (target : ReturnTarget) :
    (s.restored d target).activeJob d = s.activeJob d := by
  refine activeJob_setDevice ?_
  rw [unpause_eq]

theorem leaveFault_eq (s : State) (d : DeviceId) (target : ReturnTarget) : s.leaveFault d target =
    match (s.restored d target).activeJob d with
    | none => (s.restored d target).settle d
    | some i => ((s.restored d target).modJob i fun j => { j with paused := false }).settle d := rfl

theorem leaveFault_of_none (h : s.activeJob d = none) (target : ReturnTarget) :
    s.leaveFault d target = (s.restored d target).settle d := by
  rw [leaveFault_eq, restored_activeJob, h]

theorem leaveFault_of_some (h : s.activeJob d = some i) (hj : s.job i = some j) (target : ReturnTarget) :
    s.leaveFault d target = ((s.restored d target).setJob i (some { j with paused := false })).settle d := by
  rw [leaveFault_eq, restored_activeJob, h]
  exact congrArg (State.settle · d) (modJob_of_live (s := s.restored d target) hj)

/-- Settles O52. -/
theorem atnQualification : Obligations.AtnQualification := by
  refine ⟨fun s d high => ?_, fun s d => ⟨fun n => atnBlankingExpiry_of_running, atnBlankingExpiry_of_other⟩,
    fun s d level => ⟨qualify_of_online, qualify_of_touch, qualify_of_draining, fun target => qualify_of_fault,
      qualify_of_kept⟩, fun s d target h => ⟨enterFault_of_none h target, leaveFault_of_none h target⟩,
    fun s d target i j h hj => ?_, unpause_eq, fun s d target => ?_⟩
  · intro P level
    have hport : (s.setDevice d P).device d = P := setDevice_device_self s d P
    have hexec : exec (.atnLineChange d high) s = .next ((s.setDevice d P).followAtn d) := rfl
    refine ⟨fun h => ?_, fun h h0 => ?_, fun h h0 hb => ?_, fun h h0 hb => ?_⟩
    · rw [hexec, followAtn_of_eq (by rw [hport]; exact h), modDevice_setDevice]
    · rw [hexec, followAtn_of_at_once (by rw [hport]; exact h) (by rw [hport]; exact h0), hport]
      rfl
    · rw [hexec, followAtn_of_stopped (by rw [hport]; exact h) (by rw [hport]; exact h0) (by rw [hport]; exact hb),
        modDevice_setDevice, hport, blankingMs_of_ne h0]
    · rw [hexec, followAtn_of_going_on (by rw [hport]; exact h) (by rw [hport]; exact h0) (by rw [hport]; exact hb)]
  · intro D F
    refine ⟨fun hp => ?_, fun hk hph => ?_, leaveFault_of_some h hj target⟩
    · rw [enterFault_of_some h hj, if_pos ((pausable_iff j _).mpr hp)]
      refine congrArg (fun p => ((s.faulted d target).setDevice d p).setJob i (some { j with paused := true })) ?_
      exact congrArg DevicePort.pause (faulted_device s d target)
    · rw [enterFault_of_some h hj, if_neg]
      · rfl
      · rw [pausable_iff, hk]
        simpa using hph
  · obtain ⟨hservice, hflags⟩ := enterFault_fields s d target
    refine ⟨hservice, ?_, ?_⟩
    · rw [hflags]
      unfold State.faulted
      rw [raise_flags]
      simp
    · cases target <;> rfl

end Sys2Proof.Machine
end

section
/-! Proofs about the steps of a device port's settling: break, drain, scheduler and transmitter (sections 1.5, 1.6.1,
3.4, 4.5, 4.6, 5.2, 10.3, 10.4). -/

namespace Sys2Proof.Machine

variable {s t : State} {d e : DeviceId} {i : JobId} {j : Job}

/-! ### Work, break and drain (R8, R16, R71) -/

theorem hasWork_iff (s : State) (d : DeviceId) : s.hasWork d = true ↔
    s.activeJob d ≠ none ∨ (s.device d).scan.flush = true ∨ (s.device d).brk ≠ .none := by
  simp [State.hasWork, Option.isSome_iff_ne_none, or_assoc]

theorem txIdle_iff (p : DevicePort) : p.txIdle = true ↔ p.holding = none ∧ p.shift = none := by
  simp [DevicePort.txIdle]

theorem startBreak_eq (p : DevicePort) : p.startBreak =
    if (p.brk = .requested ∧ p.shift = none) ∨
        (p.brk = .owed ∧ (p.service = .online ∨ p.service = .draining) ∧ p.holding = none ∧ p.shift = none)
    then { p with brk := .running } else p := by
  unfold DevicePort.startBreak
  cases h : p.brk with
  | none => simp
  | running => simp
  | owed => simp [txIdle_iff]
  | requested => simp

theorem completeDrain_of_work (h : s.hasWork d = true) : s.completeDrain d = s := if_pos h

theorem completeDrain_of_other (h : (s.device d).service ≠ .draining) (h' : (s.device d).service ≠ .fault .draining) :
    s.completeDrain d = s := by
  unfold State.completeDrain
  split
  · rfl
  · split
    · contradiction
    · contradiction
    · rfl

theorem completeDrain_of_draining (hw : s.hasWork d = false) (h : (s.device d).service = .draining) :
    s.completeDrain d = (s.setDevice d { s.device d with service := .offline }).raise .deviceDrained := by
  unfold State.completeDrain
  rw [if_neg (Bool.eq_false_iff.mp hw), h]
  rfl

theorem completeDrain_of_faultDraining (hw : s.hasWork d = false) (h : (s.device d).service = .fault .draining) :
    s.completeDrain d = (s.setDevice d { s.device d with service := .fault .offline }).raise .deviceDrained := by
  unfold State.completeDrain
  rw [if_neg (Bool.eq_false_iff.mp hw), h]
  rfl

/-! ### The scheduler (R12) -/

theorem activeJob_mem (h : s.activeJob d = some i) : i ∈ (s.device d).queue := List.mem_of_find?_eq_some h

theorem activeJob_live (h : s.activeJob d = some i) : ∃ j, s.job i = some j ∧ j.state = .active := by
  have hfound := List.find?_some h
  cases hj : s.job i with
  | none => rw [hj] at hfound; exact absurd hfound (by simp)
  | some j =>
    rw [hj] at hfound
    exact ⟨j, rfl, of_decide_eq_true hfound⟩

theorem activeJob_eq_none_iff (s : State) (d : DeviceId) :
    s.activeJob d = none ↔ ∀ i ∈ (s.device d).queue, ∀ j, s.job i = some j → j.state ≠ .active := by
  unfold State.activeJob
  rw [List.find?_eq_none]
  refine forall_congr' fun i => imp_congr_right fun _ => ?_
  cases s.job i <;> simp

theorem mayStart_iff (s : State) (d : DeviceId) : s.mayStart d = true ↔ (s.device d).service = .online ∧
    s.activeJob d = none ∧ (s.device d).scan.flush = false ∧ (s.device d).brk = .none := by
  have hwork := not_congr (hasWork_iff s d)
  simp only [not_or, not_not, Bool.not_eq_true] at hwork
  unfold State.mayStart
  rw [Bool.and_eq_true, decide_eq_true_eq, Bool.not_eq_true', hwork]

theorem readyPriority_of_ready (hj : s.job i = some j) (h : j.state = .ready) :
    s.readyPriority i = some j.priority.toNat := by
  unfold State.readyPriority
  rw [hj]
  exact if_pos h

theorem readyPriority_of_not_ready (h : ∀ j, s.job i = some j → j.state ≠ .ready) : s.readyPriority i = none := by
  unfold State.readyPriority
  cases hj : s.job i with
  | none => rfl
  | some j => exact if_neg (h j hj)

theorem pickReady_of_none {q : List JobId} (h : ∀ i ∈ q, ∀ j, s.job i = some j → j.state ≠ .ready) :
    s.pickReady q = none := by
  induction q with
  | nil => rfl
  | cons a rest ih =>
    rw [State.pickReady, readyPriority_of_not_ready (h a (List.mem_cons_self ..)),
      ih fun i hi => h i (List.mem_cons_of_mem _ hi)]

/-- Every READY job of the list has a PRIORITY value that the bound admits. -/
def readyAbove (s : State) (bound : Nat → Prop) (q : List JobId) : Prop :=
  ∀ n ∈ q, ∀ x, s.job n = some x → x.state = .ready → bound x.priority.toNat

theorem pickReady_above {bound : Nat → Prop} {q : List JobId} (h : readyAbove s bound q) {n : JobId} {p : Nat}
    (hp : s.pickReady q = some (n, p)) : bound p := by
  obtain ⟨hmem, hready⟩ := pickReady_spec s hp
  obtain ⟨x, hx, hstate⟩ := readyPriority_ready s hready
  rw [readyPriority_of_ready hx hstate] at hready
  exact Option.some.inj hready ▸ h n hmem x hx hstate

/-- The head is picked when no later READY job has a lower value. -/
theorem pickReady_head {q : List JobId} (hj : s.job i = some j) (hr : j.state = .ready)
    (h : readyAbove s (j.priority.toNat ≤ ·) q) : s.pickReady (i :: q) = some (i, j.priority.toNat) := by
  rw [State.pickReady, readyPriority_of_ready hj hr]
  cases hq : s.pickReady q with
  | none => rfl
  | some r => exact if_pos (pickReady_above h hq)

theorem pickReady_skip {a : JobId} {q : List JobId} {p : Nat} (hq : s.pickReady q = some (i, p))
    (h : readyAbove s (p < ·) [a]) : s.pickReady (a :: q) = some (i, p) := by
  rw [State.pickReady, hq]
  cases ha : s.readyPriority a with
  | none => rfl
  | some pa =>
    obtain ⟨x, hx, hstate⟩ := readyPriority_ready s ha
    rw [readyPriority_of_ready hx hstate] at ha
    have hlt : p < pa := Option.some.inj ha ▸ h a (List.mem_cons_self ..) x hx hstate
    exact if_neg (by omega)

/-- R12: the lowest value, nearest the head among equals. -/
theorem pickReady_split {a b : List JobId} (hj : s.job i = some j) (hr : j.state = .ready)
    (ha : readyAbove s (j.priority.toNat < ·) a) (hb : readyAbove s (j.priority.toNat ≤ ·) b) :
    s.pickReady (a ++ i :: b) = some (i, j.priority.toNat) := by
  induction a with
  | nil => exact pickReady_head hj hr hb
  | cons n a ih =>
    refine pickReady_skip (ih fun m hm => ha m (List.mem_cons_of_mem _ hm)) fun m hm => ?_
    rw [List.mem_singleton.mp hm]
    exact ha n (List.mem_cons_self ..)

theorem schedule_of_not (h : s.mayStart d = false) : s.schedule d = s := if_neg (Bool.eq_false_iff.mp h)

theorem schedule_of_none (h : s.pickReady (s.device d).queue = none) : s.schedule d = s := by
  unfold State.schedule
  rw [h]
  exact ite_self s

theorem schedule_of_some {p : Nat} (hm : s.mayStart d = true) (h : s.pickReady (s.device d).queue = some (i, p)) :
    s.schedule d = s.activate i := by
  unfold State.schedule
  rw [if_pos hm, h]

theorem activate_of_live (hj : s.job i = some j) : s.activate i =
    (s.setDevice j.device (DevicePort.takeJob j (s.device j.device))).setJob i (some { j with state := .active }) := by
  unfold State.activate
  rw [hj]
  rfl

/-! ### The byte an engine hands next (R49, R65, R75) -/

theorem readBlock_mod (s : State) (b : BlockId) (n : Nat) : s.readBlock b (n % 128) = s.readBlock b n := by
  unfold State.readBlock blockAddr
  rw [Nat.mod_mod]

theorem feed_of_full (h : (s.device d).holding ≠ none) : s.feed d = s := if_pos (Option.isSome_iff_ne_none.mpr h)

theorem feed_of_none (h : s.activeJob d = none) : s.feed d = s := by
  unfold State.feed
  rw [h]
  exact ite_self s

theorem feed_of_print (hh : (s.device d).holding = none) (h : s.activeJob d = some i) (hj : s.job i = some j)
    (hk : j.kind = .print) : s.feed d = s.feedPrint d i j := by
  unfold State.feed
  rw [hh, h]
  dsimp only
  rw [hj]
  dsimp only
  rw [hk]
  rfl

theorem feed_of_scan (hh : (s.device d).holding = none) (h : s.activeJob d = some i) (hj : s.job i = some j)
    (hk : j.kind = .scan) : s.feed d = s.feedCommand d j := by
  unfold State.feed
  rw [hh, h]
  dsimp only
  rw [hj]
  dsimp only
  rw [hk]
  rfl

theorem feedPrint_of_nothing (h : j.paused = true ∨ j.received ≤ j.sent ∨ j.allocation = []) :
    s.feedPrint d i j = s := by
  unfold State.feedPrint
  split
  · rfl
  · next hne =>
    refine if_neg fun hx => ?_
    rcases h with h | h | h
    · simp [h] at hx
    · omega
    · simp [h] at hne

theorem feedPrint_of_byte {b : BlockId} {rest : List BlockId} (ha : j.allocation = b :: rest) (hp : j.paused = false)
    (hs : j.sent < j.received) : s.feedPrint d i j =
      let T := (s.setDevice d
        { s.device d with holding := some { data := s.readBlock b j.sent, address := false } }).setJob i
          (some { j with sent := j.sent + 1 })
      if j.lastOfBlock then (T.freeHead i).grantPass else T := by
  unfold State.feedPrint
  rw [ha]
  exact if_pos ⟨hp, hs⟩

theorem lastOfBlock_iff (j : Job) : j.lastOfBlock = true ↔
    j.sent = j.freedBlocks * 128 + 127 ∨ (j.complete = true ∧ j.sent + 1 = j.declaredLength) := by
  unfold Job.lastOfBlock
  rw [Bool.or_eq_true, Bool.and_eq_true, decide_eq_true_iff, decide_eq_true_iff]

theorem dropHead_of_print {b : BlockId} {rest : List BlockId} (hk : j.kind = .print) (ha : j.allocation = b :: rest) :
    j.dropHead = { j with allocation := rest, freedBlocks := j.freedBlocks + 1 } := by
  unfold Job.dropHead
  rw [hk, ha]
  rfl

theorem freeHead_of_live {b : BlockId} {rest : List BlockId} (hj : s.job i = some j) (ha : j.allocation = b :: rest) :
    s.freeHead i = ((s.setJob i (some j.dropHead)).setFree (s.free ++ [b])).evalTight := by
  unfold State.freeHead
  rw [hj]
  dsimp only
  rw [ha]
  rfl

theorem feedCommand_of_nothing (h : j.paused = true ∨ (s.device d).scan.commandLeft = 0) : s.feedCommand d j = s := by
  refine if_neg fun hx => ?_
  rcases h with h | h
  · simp [h] at hx
  · omega

theorem feedCommand_of_byte (hp : j.paused = false) (hl : 0 < (s.device d).scan.commandLeft) :
    s.feedCommand d j = s.setDevice d { s.device d with
      holding := some
        { data := j.command.getD (j.command.length - (s.device d).scan.commandLeft) 0#8, address := false },
      scan := { (s.device d).scan with commandLeft := (s.device d).scan.commandLeft - 1 } } := if_pos ⟨hp, hl⟩

theorem feed_of_paused (hh : (s.device d).holding = none) (h : s.activeJob d = some i) (hj : s.job i = some j)
    (hp : j.paused = true) : s.feed d = s := by
  cases hk : j.kind with
  | print => rw [feed_of_print hh h hj hk, feedPrint_of_nothing (.inl hp)]
  | scan => rw [feed_of_scan hh h hj hk, feedCommand_of_nothing (.inl hp)]

/-! ### The move to the shift stage (R153, R154) -/

theorem jobPaused_iff (s : State) (d : DeviceId) :
    s.jobPaused d = true ↔ ∃ i j, s.activeJob d = some i ∧ s.job i = some j ∧ j.paused = true := by
  unfold State.jobPaused
  cases h : s.activeJob d with
  | none => simp
  | some i => cases hj : s.job i <;> simp [hj]

theorem moveByte_of_ready {p : DevicePort} (h : p.shift = none ∧ p.holding ≠ none ∧
    (p.rdyPin != p.record.rdyLow) = true ∧ p.brk ≠ .running) :
    p.moveByte = { p with shift := p.holding, holding := none } := by
  obtain ⟨hshift, hholding, hrdy, hbrk⟩ := h
  exact if_pos ⟨Option.isNone_iff_eq_none.mpr hshift, Option.isSome_iff_ne_none.mpr hholding, hrdy, hbrk⟩

theorem moveByte_of_not_ready {p : DevicePort} (h : ¬ (p.shift = none ∧ p.holding ≠ none ∧
    (p.rdyPin != p.record.rdyLow) = true ∧ p.brk ≠ .running)) : p.moveByte = p := by
  refine if_neg fun ⟨hshift, hholding, hrdy, hbrk⟩ => h ?_
  exact ⟨Option.isNone_iff_eq_none.mp hshift, Option.isSome_iff_ne_none.mp hholding, hrdy, hbrk⟩

theorem moveTx_of_paused (h : s.jobPaused d = true) : s.moveTx d = s := if_pos h

theorem moveTx_of_going (h : s.jobPaused d = false) : s.moveTx d = s.setDevice d (s.device d).moveByte :=
  if_neg (Bool.eq_false_iff.mp h)

/-! ### The underrun timer, and the end of a print job (R64, R66, R67) -/

theorem shortOfData_iff (s : State) (d : DeviceId) : s.shortOfData d = true ↔ ∃ i j, s.activeJob d = some i ∧
    s.job i = some j ∧ j.kind = .print ∧ j.paused = false ∧ j.complete = false ∧ j.sent = j.received := by
  unfold State.shortOfData
  cases h : s.activeJob d with
  | none => simp
  | some i => cases hj : s.job i <;> simp [hj, and_assoc]

theorem updateUnderrun_of_not (h : s.shortOfData d = false) :
    s.updateUnderrun d = s.setDevice d { s.device d with underrun := .stopped } := if_neg (Bool.eq_false_iff.mp h)

theorem updateUnderrun_of_short (h : s.shortOfData d = true) : s.updateUnderrun d = s.setDevice d
    (if (s.device d).underrun = .stopped then
      { s.device d with underrun := .running (s.device d).record.underrunTimeout } else s.device d) := if_pos h

theorem finishedPrint_iff (s : State) (d : DeviceId) (i : JobId) : s.finishedPrint d = some i ↔
    s.activeJob d = some i ∧ ∃ j, s.job i = some j ∧ j.kind = .print ∧ j.complete = true ∧ j.sent = j.declaredLength ∧
      (j.declaredLength = 0 ∨ ((s.device d).holding = none ∧ (s.device d).shift = none)) := by
  unfold State.finishedPrint
  simp only [txIdle_iff]
  cases h : s.activeJob d with
  | none => simp
  | some n =>
    dsimp only
    by_cases e : n = i
    · subst e
      cases hj : s.job n with
      | none => simp
      | some j =>
        simp
        exact fun _ _ _ => or_iff_not_imp_left.symm
    · have hne : some n ≠ some i := fun x => e (Option.some.inj x)
      simp only [hne, false_and, iff_false]
      cases s.job n with
      | none => exact nofun
      | some j => dsimp only; split <;> simp [e]

end Sys2Proof.Machine
end

section
/-! Proofs about the transmitter of a device port and what follows on the port at once (sections 10.2 to 10.4). -/

namespace Sys2Proof.Machine

variable {s t : State} {d e : DeviceId} {i : JobId} {j : Job}

/-! ### A round of the settling keeps the device queues -/

/-- Every device port keeps its queue. -/
def QueuesKept (s t : State) : Prop := ∀ e, (t.device e).queue = (s.device e).queue

namespace QueuesKept

theorem refl : QueuesKept s s := fun _ => rfl

theorem trans {u : State} (h : QueuesKept s t) (g : QueuesKept t u) : QueuesKept s u := fun e => (g e).trans (h e)

theorem of_devices (h : t.devices = s.devices) : QueuesKept s t := fun e => by rw [table_of_devices h]

theorem setDevice {p : DevicePort} (h : p.queue = (s.device d).queue) : QueuesKept s (s.setDevice d p) := fun e => by
  rw [setDevice_device]
  split
  · next he => rw [he, h]
  · rfl

theorem completeDrain (s : State) (d : DeviceId) : QueuesKept s (s.completeDrain d) := by
  unfold State.completeDrain
  split
  · exact .refl
  · split
    · exact .trans (.setDevice (d := d) (by rfl)) fun e => congrArg DevicePort.queue (raise_device _ _ e)
    · exact .trans (.setDevice (d := d) (by rfl)) fun e => congrArg DevicePort.queue (raise_device _ _ e)
    · exact .refl

theorem takeJob_queue (j : Job) (p : DevicePort) : (DevicePort.takeJob j p).queue = p.queue := by
  unfold DevicePort.takeJob
  split <;> rfl

theorem schedule (s : State) (d : DeviceId) : QueuesKept s (s.schedule d) := by
  unfold State.schedule
  split
  · split
    · unfold State.activate
      split
      · exact .refl
      · exact .trans (.setDevice (takeJob_queue _ _)) (.of_devices rfl)
    · exact .refl
  · exact .refl

theorem freeHead (s : State) (i : JobId) : QueuesKept s (s.freeHead i) := by
  unfold State.freeHead
  split
  · split
    · exact .of_devices (evalTight_devices _)
    · exact .refl
  · exact .refl

theorem feedPrint (s : State) (d : DeviceId) (i : JobId) (j : Job) : QueuesKept s (s.feedPrint d i j) := by
  unfold State.feedPrint
  split
  · exact .refl
  · split
    · dsimp only
      split
      · refine .trans ?_ (.of_devices (grantPass_devices _))
        refine .trans ?_ (freeHead _ i)
        refine .trans ?_ (.of_devices (setJob_devices ..))
        exact .setDevice (by rfl)
      · refine .trans ?_ (.of_devices (setJob_devices ..))
        exact .setDevice (by rfl)
    · exact .refl

theorem feed (s : State) (d : DeviceId) : QueuesKept s (s.feed d) := by
  unfold State.feed
  split
  · exact .refl
  · split
    · exact .refl
    · split
      · exact .refl
      · split
        · exact feedPrint s d _ _
        · unfold State.feedCommand
          dsimp only
          split
          · exact .setDevice (d := d) (by rfl)
          · exact .refl

theorem moveTx (s : State) (d : DeviceId) : QueuesKept s (s.moveTx d) := by
  unfold State.moveTx
  split
  · exact .refl
  · exact .setDevice (d := d) (moveByte_side _).2.1

theorem updateUnderrun (s : State) (d : DeviceId) : QueuesKept s (s.updateUnderrun d) := by
  cases h : s.shortOfData d with
  | false => rw [updateUnderrun_of_not h]; exact .setDevice (by rfl)
  | true =>
    rw [updateUnderrun_of_short h]
    refine .setDevice ?_
    split <;> rfl

theorem settleRound (s : State) (d : DeviceId) : QueuesKept s (s.settleRound d) :=
  .trans (.trans (.trans (.trans (.trans (.trans (.setDevice (d := d) (startBreak_side _).2.1) (completeDrain _ d))
    (schedule _ d)) (feed _ d)) (moveTx _ d)) (feed _ d)) (updateUnderrun _ d)

end QueuesKept

/-! ### Rounds until nothing more follows (R64, R67) -/

theorem settleLoop_succ (s : State) (d : DeviceId) (n : Nat) : s.settleLoop d (n + 1) =
    ((s.settleRound d).finishedPrint d).elim (s.settleRound d) fun i =>
      ((s.settleRound d).endJob i .done).settleLoop d n := rfl

theorem settle_of_unfinished (h : (s.settleRound d).finishedPrint d = none) : s.settle d = s.settleRound d := by
  rw [State.settle, settleLoop_succ, h, Option.elim_none]

theorem length_filter_ne {q : List JobId} (hq : q.Nodup) (hi : i ∈ q) :
    (q.filter fun x => x != i).length + 1 = q.length := by
  have herase : q.filter (fun x => x != i) = q.erase i := (hq.erase_eq_filter i).symm
  rw [herase, List.length_erase_of_mem hi]
  have := List.length_pos_of_mem hi
  omega

theorem settle_of_finished (h : (s.settleRound d).finishedPrint d = some i) (hj : (s.settleRound d).job i = some j)
    (hd : j.device = d) (hq : (s.device d).queue.Nodup) :
    s.settle d = ((s.settleRound d).endJob i .done).settle d := by
  have hkept : ((s.settleRound d).device d).queue = (s.device d).queue := QueuesKept.settleRound s d d
  have hmem : i ∈ (s.device d).queue := hkept ▸ activeJob_mem ((finishedPrint_iff _ d i).mp h).1
  have hleft : (((s.settleRound d).endJob i .done).device d).queue = (s.device d).queue.filter fun x => x != i := by
    subst hd
    rw [endJob_queue hj, hkept]
  have hlength : ((((s.settleRound d).endJob i .done).device d).queue).length + 1 = (s.device d).queue.length := by
    rw [hleft, length_filter_ne hq hmem]
  have hloop : s.settle d = ((s.settleRound d).endJob i .done).settleLoop d (s.device d).queue.length := by
    rw [State.settle, settleLoop_succ, h, Option.elim_some]
  rw [hloop, ← hlength]
  unfold State.settle
  exact Eq.refl _

/-- A port with nothing to do but send what waits in its holding stage. -/
theorem settle_of_quiet (hq : (s.device d).queue = []) (hb : (s.device d).brk = .none)
    (hs : (s.device d).service ≠ .draining) (hs' : (s.device d).service ≠ .fault .draining) :
    s.settle d = s.setDevice d { (s.device d).moveByte with underrun := .stopped } := by
  have hbreak : s.modDevice d DevicePort.startBreak = s := by
    have hsame : (s.device d).startBreak = s.device d := by
      unfold DevicePort.startBreak
      rw [hb]
    exact (congrArg (s.setDevice d) hsame).trans (setDevice_same s d)
  have hpick : s.schedule d = s := schedule_of_none (by rw [hq]; rfl)
  have hidle : ∀ u : State, QueuesKept s u → u.activeJob d = none := fun u hu => by
    unfold State.activeJob
    rw [hu d, hq]
    rfl
  have hpaused : s.jobPaused d = false := by
    unfold State.jobPaused
    rw [hidle s .refl]
    rfl
  have hmoved := QueuesKept.setDevice (s := s) (d := d) (moveByte_side (s.device d)).2.1
  have hshort : (s.setDevice d (s.device d).moveByte).shortOfData d = false := by
    unfold State.shortOfData
    rw [hidle _ hmoved]
  have hround : s.settleRound d = s.setDevice d { (s.device d).moveByte with underrun := .stopped } := by
    unfold State.settleRound State.pump
    rw [hbreak, completeDrain_of_other hs hs', hpick, feed_of_none (hidle s .refl), moveTx_of_going hpaused,
      feed_of_none (hidle _ hmoved), updateUnderrun_of_not hshort, setDevice_setDevice, setDevice_device_self]
  rw [← hround]
  refine settle_of_unfinished ?_
  unfold State.finishedPrint
  rw [hidle _ (.settleRound s d)]

end Sys2Proof.Machine
end

section
/-! Proofs about the transmitter's events, the bits of a sent character and the level of the data output (sections 10.2
to 10.4). -/

namespace Sys2Proof.Machine

variable {s : State} {d : DeviceId}

/-! ### The events (R94, R153, R154) -/

theorem characterSent_of_empty (h : (s.device d).shift = none) : exec (.characterSent d) s = .next s :=
  congrArg Host.Outcome.next (by rw [h])

theorem characterSent_of_full (h : (s.device d).shift ≠ none) : exec (.characterSent d) s =
    .next (((s.setDevice d { s.device d with shift := none }).pollCharSent d).settle d) := by
  obtain ⟨x, hx⟩ := Option.ne_none_iff_exists'.mp h
  exact congrArg Host.Outcome.next (by rw [hx]; rfl)

theorem pollCharSent_of_not (h : (∀ p, (s.device d).poller.current ≠ some (p, .sending)) ∨ (s.device d).holding ≠ none) :
    s.pollCharSent d = s := by
  unfold State.pollCharSent
  split
  · next p hp =>
    have hfull := h.resolve_left fun x => x p hp
    exact if_neg (by rwa [Option.isNone_iff_eq_none])
  · rfl

theorem setStep_of_current {p : PanelId} {x : PollStep} (h : (s.device d).poller.current = some (p, x))
    (step : PollStep) : s.setStep d step = s.setDevice d { s.device d with
      poller := { (s.device d).poller with current := some (p, step) } } := by
  have hcurrent : (s.device d).poller.current.map (fun c => (c.1, step)) = some (p, step) := by rw [h]; rfl
  rw [← hcurrent]
  rfl

theorem pollCharSent_of_sending {p : PanelId} (h : (s.device d).poller.current = some (p, .sending))
    (hh : (s.device d).holding = none) : s.pollCharSent d = s.setDevice d { s.device d with
      poller := { (s.device d).poller with current := some (p, .awaiting (s.device d).record.replyTimeout) } } := by
  unfold State.pollCharSent
  rw [h, hh]
  exact setStep_of_current h _

theorem deviceBreakEnd_of_running (h : (s.device d).brk = .running) : exec (.deviceBreakEnd d) s =
    .next ((s.setDevice d { s.device d with brk := .none }).settle d) := congrArg Host.Outcome.next (by rw [h]; rfl)

theorem deviceBreakEnd_of_other (h : (s.device d).brk ≠ .running) : exec (.deviceBreakEnd d) s = .next s := by
  refine congrArg Host.Outcome.next ?_
  split
  · contradiction
  · rfl

/-! ### The data output (R152–R154) -/

theorem device_restLevel_eq (p : DevicePort) : p.restLevel = (match p.brk with
    | .running => false | .none => true | .owed => true | .requested => true) := by
  unfold DevicePort.restLevel
  cases p.brk <;> rfl

/-- A port whose stages are empty and that sends no break is at mark. -/
theorem at_mark {p : DevicePort} (hs : p.shift = none) (hb : p.brk = .none) : p.sentBits = none ∧ p.restLevel = true := by
  constructor
  · unfold DevicePort.sentBits
    rw [hs]
    rfl
  · rw [device_restLevel_eq, hb]

theorem resetEngine_at_mark (p : DevicePort) : p.resetEngine.shift = none ∧ p.resetEngine.brk = .none := by
  rw [resetEngine_frame]
  exact ⟨rfl, rfl⟩

theorem sentBits_of_full {p : DevicePort} {c : TxChar} (h : p.shift = some c) :
    p.sentBits = some ([false] ++ (List.range 8).map c.data.getLsbD ++ (p.record.format.ninthBit c).toList ++ [true]) := by
  unfold DevicePort.sentBits
  rw [h]
  rfl

/-- The parity of a byte's ones (R152). -/
theorem oddOnes_eq (b : Byte) :
    oddOnes b = decide (((List.range 8).map fun n => b.getLsbD n).count true % 2 = 1) := by
  have hbits : (List.range 8).map (fun n => b.getLsbD n) = [b.getLsbD 0, b.getLsbD 1, b.getLsbD 2, b.getLsbD 3,
      b.getLsbD 4, b.getLsbD 5, b.getLsbD 6, b.getLsbD 7] := rfl
  rw [hbits, oddOnes]
  generalize b.getLsbD 0 = b0
  generalize b.getLsbD 1 = b1
  generalize b.getLsbD 2 = b2
  generalize b.getLsbD 3 = b3
  generalize b.getLsbD 4 = b4
  generalize b.getLsbD 5 = b5
  generalize b.getLsbD 6 = b6
  generalize b.getLsbD 7 = b7
  revert b0 b1 b2 b3 b4 b5 b6 b7
  decide

theorem count_append_parity (bits : List Bool) :
    (bits ++ [decide (bits.count true % 2 = 1)]).count true % 2 = 0 ∧
      (bits ++ [!decide (bits.count true % 2 = 1)]).count true % 2 = 1 := by
  rw [List.count_append, List.count_append]
  rcases Nat.mod_two_eq_zero_or_one (bits.count true) with h | h <;> simp [h] <;> omega

/-! ### The bits of a sent character by format (R152) -/

theorem sentBits_of_empty {p : DevicePort} (h : p.shift = none) : p.sentBits = none := by
  unfold DevicePort.sentBits
  rw [h]
  rfl

/-- The parity bit of f8E1 makes the ones even, that of f8O1 odd. -/
theorem sentBits_of_format {p : DevicePort} {c : TxChar} (h : p.shift = some c) :
    let data := (List.range 8).map fun n => c.data.getLsbD n
    (p.record.format = .f8N1 → p.sentBits = some ([false] ++ data ++ [true])) ∧
      (p.record.format = .f8E1 → ∃ parity, p.sentBits = some ([false] ++ data ++ [parity, true]) ∧
        (data ++ [parity]).count true % 2 = 0) ∧
      (p.record.format = .f8O1 → ∃ parity, p.sentBits = some ([false] ++ data ++ [parity, true]) ∧
        (data ++ [parity]).count true % 2 = 1) ∧
      (p.record.format = .multidrop → p.sentBits = some ([false] ++ data ++ [c.address, true])) := by
  intro data
  rw [sentBits_of_full h]
  refine ⟨fun hf => ?_, fun hf => ⟨oddOnes c.data, ?_, ?_⟩, fun hf => ⟨!oddOnes c.data, ?_, ?_⟩, fun hf => ?_⟩
  · rw [hf]; rfl
  · rw [hf]; rfl
  · rw [oddOnes_eq]
    exact (count_append_parity data).1
  · rw [hf]; rfl
  · rw [oddOnes_eq]
    exact (count_append_parity data).2
  · rw [hf]; rfl

/-! ### The next byte of a print job (R64, R65) -/

section

variable {i : JobId} {j : Job} {b : BlockId} {rest : List BlockId} (hh : (s.device d).holding = none)
  (ha : s.activeJob d = some i) (hj : s.job i = some j) (hk : j.kind = .print) (hp : j.paused = false)
  (hs : j.sent < j.received) (hal : j.allocation = b :: rest)

include hh ha hj hk hp hs hal

theorem feed_of_printByte :
    let T := (s.setDevice d { s.device d with
      holding := some { data := s.readBlock b (j.sent % 128), address := false } }).setJob i
        (some { j with sent := j.sent + 1 })
    s.feed d = if j.lastOfBlock then (T.freeHead i).grantPass else T := by
  rw [feed_of_print hh ha hj hk, feedPrint_of_byte hal hp hs, readBlock_mod]

theorem feed_of_lastByte (hlast : j.lastOfBlock = true) :
    let T := s.setDevice d
      { s.device d with holding := some { data := s.readBlock b (j.sent % 128), address := false } }
    s.feed d = (((T.setJob i (some { j with
      sent := j.sent + 1, allocation := rest, freedBlocks := j.freedBlocks + 1 })).setFree
      (s.free ++ [b])).evalTight).grantPass := by
  intro T
  have hlive : (T.setJob i (some { j with sent := j.sent + 1 })).job i = some { j with sent := j.sent + 1 } :=
    setJob_job_self _ _ _
  refine (feed_of_printByte hh ha hj hk hp hs hal).trans ((if_pos hlast).trans ?_)
  rw [freeHead_of_live hlive hal, dropHead_of_print (j := { j with sent := j.sent + 1 }) hk hal, setJob_setJob]
  rfl

end

/-! ### The port at mark after a reset -/

theorem restarted_at_mark (s : State) (d : DeviceId) (rec : DeviceRecord) :
    ∀ p ∈ [s.poweredOn.device d, s.resetSwitch.device d, (s.device d).resetEngine, (s.device d).restartEngine rec],
      p.sentBits = none ∧ p.restLevel = true := by
  obtain ⟨hshift, hbrk⟩ := resetEngine_at_mark (s.device d)
  simp only [List.forall_mem_cons]
  refine ⟨?_, ?_, at_mark hshift hbrk, at_mark rfl rfl, fun _ h => absurd h List.not_mem_nil⟩
  · rw [poweredOn_device]
    exact at_mark rfl rfl
  · rw [resetSwitch_device]
    exact at_mark hshift hbrk

/-- Settles O53. -/
theorem deviceTransmitter : Obligations.DeviceTransmitter := by
  refine ⟨fun s d high => rfl, fun s d => ?_, fun s d => ?_, fun s d => ?_, startBreak_eq, fun s d => ?_,
    fun s d => ⟨activeJob_eq_none_iff s d, fun i h => ⟨activeJob_mem h, activeJob_live h⟩⟩, fun s d => ?_,
    fun s d => ?_, fun s d => ?_, fun s d => ?_, finishedPrint_iff, device_restLevel_eq, restarted_at_mark,
    fun p c => ⟨sentBits_of_empty, sentBits_of_format⟩⟩
  · intro D
    refine ⟨characterSent_of_empty, fun h hn => ?_, fun p h hc hh => ?_, deviceBreakEnd_of_running,
      deviceBreakEnd_of_other⟩
    · rw [characterSent_of_full h, pollCharSent_of_not (by rw [setDevice_device_self]; exact hn)]
    · rw [characterSent_of_full h, pollCharSent_of_sending (by rw [setDevice_device_self]; exact hc)
        (by rw [setDevice_device_self]; exact hh), setDevice_setDevice, setDevice_device_self]
  · intro D hq hb hs hs'
    rw [settle_of_quiet hq hb hs hs']
    by_cases h : D.shift = none ∧ D.holding ≠ none ∧ (D.rdyPin != D.record.rdyLow) = true
    · obtain ⟨hshift, hholding, hrdy⟩ := h
      rw [if_pos ⟨hshift, hholding, hrdy⟩, moveByte_of_ready ⟨hshift, hholding, hrdy, by rw [hb]; decide⟩]
    · rw [if_neg h, moveByte_of_not_ready fun ⟨hshift, hholding, hrdy, _⟩ => h ⟨hshift, hholding, hrdy⟩]
  · intro R
    have hR : s.settleRound d = R := rfl
    clear_value R
    subst hR
    exact ⟨settle_of_unfinished, fun i j => settle_of_finished⟩
  · intro D work
    refine ⟨fun h => completeDrain_of_draining ?_, fun h => completeDrain_of_faultDraining ?_, fun h => ?_⟩
    · exact Bool.eq_false_iff.mpr fun x => h ((hasWork_iff s d).mp x)
    · exact Bool.eq_false_iff.mpr fun x => h ((hasWork_iff s d).mp x)
    · rcases h with h | ⟨h, h'⟩
      · exact completeDrain_of_work ((hasWork_iff s d).mpr h)
      · exact completeDrain_of_other h h'
  · intro D may
    refine ⟨fun h => schedule_of_not (Bool.eq_false_iff.mpr fun x => h ((mayStart_iff s d).mp x)),
      fun h => schedule_of_none (pickReady_of_none h), fun a i b j hm hq hj hr ha hb => ?_⟩
    intro P
    rw [schedule_of_some ((mayStart_iff s d).mpr hm) (hq ▸ pickReady_split hj hr ha hb), activate_of_live hj]
    unfold DevicePort.takeJob
    cases j.kind <;> rfl
  · intro D
    refine ⟨fun h => ?_, fun i j hh ha hj => ?_⟩
    · rcases h with h | h
      · exact feed_of_full h
      · exact feed_of_none h
    · refine ⟨fun hp => feed_of_paused hh ha hj hp, fun hk h => ?_, fun b rest hk hp hs hal => ?_, fun hk hl => ?_,
        fun hk hp hl => ?_⟩
      · rw [feed_of_print hh ha hj hk, feedPrint_of_nothing (.inr h)]
      · intro T last
        exact ⟨fun h => (feed_of_printByte hh ha hj hk hp hs hal).trans
            (if_neg fun x => h ((lastOfBlock_iff j).mp x)),
          fun h => feed_of_lastByte hh ha hj hk hp hs hal ((lastOfBlock_iff j).mpr h)⟩
      · rw [feed_of_scan hh ha hj hk, feedCommand_of_nothing (.inr hl)]
      · rw [feed_of_scan hh ha hj hk]
        exact feedCommand_of_byte hp hl
  · intro D paused ready
    refine ⟨fun h => ?_, fun h hr => ?_⟩
    · by_cases hp : paused
      · exact moveTx_of_paused ((jobPaused_iff s d).mpr hp)
      · rw [moveTx_of_going (Bool.eq_false_iff.mpr fun x => hp ((jobPaused_iff s d).mp x)),
          moveByte_of_not_ready (h.resolve_left hp), setDevice_same]
    · rw [moveTx_of_going (Bool.eq_false_iff.mpr fun x => h ((jobPaused_iff s d).mp x)), moveByte_of_ready hr]
  · intro D short
    refine ⟨fun h => updateUnderrun_of_not (Bool.eq_false_iff.mpr fun x => h ((shortOfData_iff s d).mp x)),
      fun h hu => ?_, fun h hu => ?_⟩
    · rw [updateUnderrun_of_short ((shortOfData_iff s d).mpr h), if_pos hu]
    · rw [updateUnderrun_of_short ((shortOfData_iff s d).mpr h), if_neg hu, setDevice_same]

end Sys2Proof.Machine
end

section
/-! Proofs about the device timers and the received characters (sections 1.6.3, 1.6.4, 4.5, 5.3 to 5.7, 10.5, 10.7). -/

namespace Sys2Proof.Machine

variable {s : State} {d : DeviceId} {i : JobId} {j : Job}

/-! ### Expiries (log entry 2) -/

theorem faultLimitExpiry_of_other (h : ∀ n, (s.device d).faultLimit ≠ .running n) :
    exec (.faultLimitExpiry d) s = .next s := by
  refine congrArg Host.Outcome.next ?_
  split
  · next n hn => exact absurd hn (h n)
  · rfl

theorem faultLimitExpiry_of_running {n : Nat} (h : (s.device d).faultLimit = .running n) :
    exec (.faultLimitExpiry d) s = .next (match s.activeJob d with
      | some i =>
        ((s.setDevice d { s.device d with faultLimit := .stopped }).decideEnd i .failedStalled).settle d
      | none => s.setDevice d { s.device d with faultLimit := .stopped }) :=
  congrArg Host.Outcome.next (by rw [h]; rfl)

theorem underrunTimeoutExpiry_of_other (h : (∀ n, (s.device d).underrun ≠ .running n) ∨ s.activeJob d = none) :
    exec (.underrunTimeoutExpiry d) s = .next s := by
  refine congrArg Host.Outcome.next ?_
  split
  · next n hn =>
    rw [h.resolve_left fun x => x n hn]
  · rfl

theorem underrunTimeoutExpiry_of_running {n : Nat} (h : (s.device d).underrun = .running n) (ha : s.activeJob d = some i) :
    exec (.underrunTimeoutExpiry d) s = .next ((s.endJob i .failedUnderrun).settle d) :=
  congrArg Host.Outcome.next (by rw [h, ha])

theorem firstByteTimeoutExpiry_of_other (h : (∀ n, (s.device d).scan.firstByte ≠ .running n) ∨ s.activeJob d = none) :
    exec (.firstByteTimeoutExpiry d) s = .next s := by
  refine congrArg Host.Outcome.next ?_
  split
  · next n hn =>
    rw [h.resolve_left fun x => x n hn]
  · rfl

theorem firstByteTimeoutExpiry_of_running {n : Nat} (h : (s.device d).scan.firstByte = .running n)
    (ha : s.activeJob d = some i) : exec (.firstByteTimeoutExpiry d) s = .next ((s.endJob i .failedNoData).settle d) :=
  congrArg Host.Outcome.next (by rw [h, ha])

theorem endGapReached_of_other (h : (∀ n, (s.device d).scan.gap ≠ .running n) ∨ (s.device d).lineHeld = true) :
    exec (.endGapReached d) s = .next s := by
  refine congrArg Host.Outcome.next ?_
  split
  · next n hn => exact if_pos (h.resolve_left fun x => x n hn)
  · rfl

/-- The port whose reception has ended. -/
def State.delivering (s : State) (d : DeviceId) : State :=
  s.setDevice d { s.device d with scan := { (s.device d).scan with phase := .delivery, gap := .stopped } }

theorem endGapReached_of_running {n : Nat} (h : (s.device d).scan.gap = .running n) (hl : (s.device d).lineHeld = false)
    (ha : s.activeJob d = some i) :
    exec (.endGapReached d) s = .next (((s.delivering d).endIfDelivered i).settle d) := by
  refine congrArg Host.Outcome.next ?_
  rw [h, hl, ha]
  rfl

theorem delivering_endIfDelivered (hj : s.job i = some j) (hd : j.device = d) : (s.delivering d).endIfDelivered i =
    if j.allocation = [] then (s.delivering d).endJob i (if j.truncated then .doneTruncated else .done)
    else s.delivering d := by
  have hphase : ((s.delivering d).device j.device).scan.phase = .delivery := by
    rw [hd]
    exact congrArg (fun p : DevicePort => p.scan.phase) (setDevice_device_self ..)
  rw [endIfDelivered_of_live (s := s.delivering d) hj, hphase]
  simp only [true_and]

theorem flushEnd_of_flush (h : (s.device d).scan.flush = true) (hl : (s.device d).lineHeld = false) :
    exec (.flushEnd d) s = .next ((s.setDevice d
      { s.device d with scan := { (s.device d).scan with flush := false } }).settle d) :=
  congrArg Host.Outcome.next (if_pos (by rw [h, hl]; rfl))

theorem flushEnd_of_other (h : (s.device d).scan.flush = false ∨ (s.device d).lineHeld = true) :
    exec (.flushEnd d) s = .next s :=
  congrArg Host.Outcome.next (if_neg (by rcases h with h | h <;> simp [h]))

/-- Settles O54. -/
theorem deviceTimers : Obligations.DeviceTimers := by
  intro s d D
  refine ⟨faultLimitExpiry_of_other, fun n h ha => ?_, fun n i h ha => ?_, underrunTimeoutExpiry_of_other,
    fun n i => underrunTimeoutExpiry_of_running, firstByteTimeoutExpiry_of_other,
    fun n i => firstByteTimeoutExpiry_of_running, endGapReached_of_other, fun n i j h hl ha hj hd => ?_,
    flushEnd_of_flush, flushEnd_of_other, rfl⟩
  · rw [faultLimitExpiry_of_running h, ha]
  · rw [faultLimitExpiry_of_running h, ha]
  · rw [endGapReached_of_running h hl ha, delivering_endIfDelivered hj hd]
    by_cases hempty : j.allocation = []
    · rw [if_pos hempty]
      exact congrArg Host.Outcome.next (if_pos hempty).symm
    · rw [if_neg hempty]
      exact congrArg Host.Outcome.next (if_neg hempty).symm

end Sys2Proof.Machine
end

section
/-! Proofs about the characters a device port receives (sections 1.6.4, 5.3 to 5.7, 10.5, 10.7, 10.8). -/

namespace Sys2Proof.Machine

variable {s : State} {d : DeviceId} {i : JobId} {j : Job} {data : Byte} {bad : Bool}

/-! ### The errors of a completed character (R156, R158) -/

theorem latchErrors_eq (parity stopMark : Bool) (p : DevicePort) : p.latchErrors parity (!stopMark) = { p with
    causes := (if parity then p.causes ||| 1#4 else p.causes) ||| (if stopMark then 0#4 else 2#4),
    lineHeld := !stopMark } := by
  cases parity <;> cases stopMark <;> simp [DevicePort.latchErrors, DevicePort.latch, DeviceCause.bit]

theorem parity_count (b : Byte) (ninth : Bool) :
    (oddOnes b ^^ ninth) =
      decide ((((List.range 8).filter fun n => b.getLsbD n).length + (if ninth then 1 else 0)) % 2 = 1) := by
  have hones : ((List.range 8).map fun n => b.getLsbD n).count true = ((List.range 8).filter fun n => b.getLsbD n).length := by
    rw [List.count_eq_length_filter, List.filter_map, List.length_map]
    congr 1
    exact List.filter_congr fun n _ => by simp
  rw [oddOnes_eq, hones]
  generalize ((List.range 8).filter fun n => b.getLsbD n).length = ones
  cases ninth <;> rcases Nat.mod_two_eq_zero_or_one ones with h | h <;> simp [Nat.add_mod, h]

theorem parityError_eq (b : Byte) (ninth : Bool) :
    let ones := ((List.range 8).filter fun n => b.getLsbD n).length + (if ninth then 1 else 0)
    (parityError .f8E1 b ninth = true ↔ ones % 2 = 1) ∧ (parityError .f8O1 b ninth = true ↔ ones % 2 = 0) ∧
      parityError .f8N1 b ninth = false ∧ parityError .multidrop b ninth = false := by
  intro ones
  have hodd : (oddOnes b ^^ ninth) = decide (ones % 2 = 1) := parity_count b ninth
  refine ⟨?_, ?_, rfl, rfl⟩
  · show (oddOnes b ^^ ninth) = true ↔ _
    rw [hodd, decide_eq_true_iff]
  · show (!(oddOnes b ^^ ninth)) = true ↔ _
    rw [hodd, Bool.not_eq_true', decide_eq_false_iff_not]
    omega

/-! ### The taker of a character (R156) -/

/-- The port with the character's errors latched. -/
def State.latched (s : State) (d : DeviceId) (data : Byte) (ninth stopMark : Bool) : State :=
  s.modDevice d (DevicePort.latchErrors (parityError (s.device d).record.format data ninth) (!stopMark))

theorem latched_eq (s : State) (d : DeviceId) (data : Byte) (ninth stopMark : Bool) :
    s.latched d data ninth stopMark = s.setDevice d { s.device d with
      causes := (if parityError (s.device d).record.format data ninth then (s.device d).causes ||| 1#4
        else (s.device d).causes) ||| (if stopMark then 0#4 else 2#4),
      lineHeld := !stopMark } := congrArg (s.setDevice d) (latchErrors_eq ..)

theorem deviceChar_of_held {ninth stopMark : Bool} (h : (s.device d).lineHeld = true) :
    exec (.deviceCharReceived d data ninth stopMark) s = .next s := congrArg Host.Outcome.next (if_pos h)

theorem deviceChar_of_mark {ninth stopMark : Bool} (h : (s.device d).lineHeld = false) :
    exec (.deviceCharReceived d data ninth stopMark) s = .next ((s.latched d data ninth stopMark).takeChar d data
      (decide ((s.device d).record.format = .multidrop) && ninth)
      (parityError (s.device d).record.format data ninth || !stopMark)) :=
  congrArg Host.Outcome.next (if_neg (Bool.eq_false_iff.mp h))

theorem takeChar_of_none {a : Bool} (h : (s.device d).record.cls = .unused ∨ (s.device d).service = .disabled ∨
    ((s.device d).record.cls = .printer ∧ (s.device d).service ≠ .offline) ∨
    ((s.device d).record.cls = .touch ∧ (s.device d).service ≠ .online)) : s.takeChar d data a bad = s := by
  unfold State.takeChar
  split <;> simp_all

theorem takeChar_of_offline {a : Bool} (hc : (s.device d).record.cls = .printer ∨ (s.device d).record.cls = .scanner)
    (hs : (s.device d).service = .offline) : s.takeChar d data a bad = s.offlineChar d := by
  unfold State.takeChar
  rcases hc with hc | hc <;> rw [hc, hs]

theorem takeChar_of_touch {a : Bool} (hc : (s.device d).record.cls = .touch) (hs : (s.device d).service = .online) :
    s.takeChar d data a bad = s.touchChar d data a := by
  unfold State.takeChar
  rw [hc, hs]

theorem takeChar_of_scanner {a : Bool} (hc : (s.device d).record.cls = .scanner)
    (hs : (s.device d).service = .online ∨ (s.device d).service = .draining ∨ ∃ t, (s.device d).service = .fault t) :
    s.takeChar d data a bad = s.scannerChar d data bad := by
  unfold State.takeChar
  rcases hs with hs | hs | ⟨t, hs⟩ <;> rw [hc, hs]

/-! ### A character of a scan job (R77, R80) -/

theorem scannerChar_of_flush (h : (s.device d).scan.flush = true) : s.scannerChar d data bad = s := if_pos h

theorem scannerChar_of_other (h : (s.device d).scan.flush = false) (hp : (s.device d).scan.phase ≠ .reception) :
    s.scannerChar d data bad = s.latchDevice d .unsolicited :=
  (if_neg (Bool.eq_false_iff.mp h)).trans (if_neg hp)

theorem activeScan_of_scan (ha : s.activeJob d = some i) (hj : s.job i = some j) (hk : j.kind = .scan) :
    s.activeScan d = some i := by
  unfold State.activeScan
  rw [ha, Option.filter_some, hj]
  exact if_pos (decide_eq_true hk)

theorem scannerChar_of_reception (h : (s.device d).scan.flush = false) (hp : (s.device d).scan.phase = .reception)
    (ha : s.activeJob d = some i) (hj : s.job i = some j) (hk : j.kind = .scan) :
    s.scannerChar d data bad = s.scanChar d i data bad := by
  unfold State.scannerChar
  rw [if_neg (Bool.eq_false_iff.mp h), if_pos hp, activeScan_of_scan ha hj hk]

theorem scanChar_of_full (hj : s.job i = some j) (h : 16777215 ≤ j.received) :
    s.scanChar d i data bad = s.truncate d i := by
  unfold State.scanChar
  rw [hj]
  exact if_pos h

theorem scanChar_of_room (hj : s.job i = some j) (h : j.received < 16777215) (hne : j.allocation ≠ [])
    (hfill : j.tailFill < 128) : s.scanChar d i data bad = s.storeByte d i j.tailFill data bad := by
  unfold State.scanChar
  rw [hj]
  exact (if_neg (Nat.not_le.mpr h)).trans (if_neg (not_or.mpr ⟨hne, Nat.not_le.mpr hfill⟩))

theorem scanChar_of_no_room (hj : s.job i = some j) (h : j.received < 16777215)
    (hfull : j.allocation = [] ∨ 128 ≤ j.tailFill) : s.scanChar d i data bad = match s.allocateScan i with
      | none => s.truncate d i
      | some t => (t.evalWatermark i).storeByte d i 0 data bad := by
  unfold State.scanChar
  rw [hj]
  exact (if_neg (Nat.not_le.mpr h)).trans (if_pos hfull)

theorem storeByte_of_last {b : BlockId} (hj : s.job i = some j) (hb : j.allocation.getLast? = some b) (fill : Nat) :
    s.storeByte d i fill data bad = ((s.writeBlock b fill data).setJob i (some
      { j with received := j.received + 1, lineErrors := j.lineErrors || bad })).modDevice d
        (DevicePort.charStored j.paused) := by
  unfold State.storeByte
  rw [hj]
  dsimp only
  rw [hb]
  rfl

theorem allocateScan_of_refused (hj : s.job i = some j) (h : s.free = [] ∨
    (s.kiosk (jobKiosk i)).quota ≤ s.holdingOf (jobKiosk i) ∨ j.maxBlocks ≤ j.allocation.length) :
    s.allocateScan i = none := by
  unfold State.allocateScan
  rw [hj]
  split
  · next b rest x hfree hx =>
    obtain rfl := Option.some.inj hx
    refine if_neg fun hmay => ?_
    rcases h with h | h | h
    · simp [h] at hfree
    · omega
    · omega
  · rfl

theorem allocateScan_of_granted {b : BlockId} {rest : List BlockId} (hj : s.job i = some j) (hf : s.free = b :: rest)
    (hq : s.holdingOf (jobKiosk i) < (s.kiosk (jobKiosk i)).quota) (hm : j.allocation.length < j.maxBlocks) :
    s.allocateScan i =
      some ((s.setFree rest).setJob i (some { j with allocation := j.allocation ++ [b] })).evalTight := by
  unfold State.allocateScan
  rw [hj, hf]
  exact if_pos ⟨hq, hm⟩

/-! ### A truncation stop (R80) -/

/-- The job and the port of a truncation stop, before the job's end. -/
def State.cut (s : State) (d : DeviceId) (i : JobId) (j : Job) : State :=
  (s.setDevice d { s.device d with
    causes := (s.device d).causes ||| 8#4, faultLimit := .stopped,
    scan := { (s.device d).scan with phase := .delivery, firstByte := .stopped, gap := .stopped, flush := true } }).setJob
      i (some { j with truncated := true, paused := false })

theorem truncate_eq (hj : s.job i = some j) (hd : j.device = d) : s.truncate d i =
    (if j.allocation = [] then (s.cut d i j).endJob i .doneTruncated else s.cut d i j).settle d := by
  have hcut : ((s.latchDevice d .truncation).modDevice d DevicePort.truncationStop).modJob i Job.cutShort = s.cut d i j := by
    rw [modJob_of_live (s := (s.latchDevice d .truncation).modDevice d DevicePort.truncationStop) hj]
    unfold State.latchDevice
    rw [modDevice_modDevice]
    rfl
  have hphase : ((s.cut d i j).device j.device).scan.phase = .delivery := by
    rw [hd]
    exact congrArg (fun p : DevicePort => p.scan.phase) (setDevice_device_self s d _)
  have hjob : (s.cut d i j).job i = some { j with truncated := true, paused := false } := setJob_job_self _ _ _
  unfold State.truncate
  rw [hcut, endIfDelivered_of_live hjob]
  refine congrArg (State.settle · d) ?_
  by_cases hempty : j.allocation = []
  · rw [if_pos hempty]
    exact if_pos ⟨hphase, hempty⟩
  · rw [if_neg hempty]
    exact if_neg fun x => hempty x.2

/-! ### HOLD and GAP (R79, R82, R159) -/

theorem hold_iff (p : DevicePort) : p.hold = true ↔ p.record.holdMode = .forceActive ∨
    (p.record.holdMode = .auto ∧ (p.scan.flush = true ∨ (p.scan.phase ≠ .none ∧ p.scan.watermark = true))) := by
  unfold DevicePort.hold
  cases p.record.holdMode <;> simp

theorem holdPin_eq (p : DevicePort) : p.holdPin = if p.record.holdLow then !p.hold else p.hold := by
  unfold DevicePort.holdPin
  cases p.record.holdLow <;> cases p.hold <;> rfl

theorem charStored_timers (paused : Bool) (p : DevicePort) :
    (p.charStored paused).scan.firstByte = .stopped ∧ (p.charStored paused).scan.gap =
      if paused = true ∨ (p.record.holdMode = .auto ∧ p.scan.watermark = true) then .suspended
      else .running p.record.endGap := by
  unfold DevicePort.charStored
  rw [reviseGap_eq]
  refine ⟨rfl, ?_⟩
  dsimp only
  exact if_neg (by simp)

/-- Settles O55. -/
theorem charactersReceived : Obligations.CharactersReceived := by
  refine ⟨fun s d data ninth stopMark => ?_, fun s d => rfl, parityError_eq, fun s d i j hj hd => truncate_eq hj hd,
    fun s i => ⟨evalWatermark_of_free, fun j hj => ⟨evalWatermark_of_phase_none hj, evalWatermark_of_phase hj⟩⟩,
    fun p => ⟨hold_iff p, holdPin_eq p⟩, fun p paused => charStored_timers paused p⟩
  intro D parity bad L c
  have hL : s.latched d data ninth stopMark = L := latched_eq s d data ninth stopMark
  have hport : L.device d = _ := setDevice_device_self s d _
  have hrecord : (L.device d).record = D.record := (congrArg DevicePort.record hport :)
  have hservice : (L.device d).service = D.service := (congrArg DevicePort.service hport :)
  have hscan : (L.device d).scan = D.scan := (congrArg DevicePort.scan hport :)
  have hactive : L.activeJob d = s.activeJob d := activeJob_setDevice rfl
  have hexec : D.lineHeld = false → exec c s = .next (L.takeChar d data
      (decide (D.record.format = .multidrop) && ninth) bad) := fun h => hL ▸ deviceChar_of_mark h
  refine ⟨deviceChar_of_held, fun h => ⟨fun hn => ?_, fun hc hs => ?_, fun hc hs => ?_, fun hc hs => ?_⟩⟩
  · rw [hexec h, takeChar_of_none (by rw [hrecord, hservice]; exact hn)]
  · rw [hexec h, takeChar_of_offline (by rw [hrecord]; exact hc) (by rw [hservice]; exact hs)]
    unfold State.offlineChar
    rw [hrecord]
  · rw [hexec h, takeChar_of_touch (by rw [hrecord]; exact hc) (by rw [hservice]; exact hs)]
  · rw [hexec h, takeChar_of_scanner (by rw [hrecord]; exact hc) (by rw [hservice]; exact hs)]
    refine ⟨fun hf => ?_, fun hf hp => ?_, fun i j hf hp ha hj hk => ?_⟩
    · rw [scannerChar_of_flush (by rw [hscan]; exact hf)]
    · rw [scannerChar_of_other (by rw [hscan]; exact hf) (by rw [hscan]; exact hp)]
    · have hlive : L.job i = some j := hj
      rw [scannerChar_of_reception (by rw [hscan]; exact hf) (by rw [hscan]; exact hp) (hactive.trans ha) hlive hk]
      refine ⟨fun hr => ?_, fun b hr hb hfill => ?_, fun hr hfull hno => ?_, fun b rest hr hfull hfree hq hm => ?_⟩
      · rw [scanChar_of_full hlive hr]
      · rw [scanChar_of_room hlive hr (fun e => by simp [e] at hb) hfill, storeByte_of_last hlive hb]
      · rw [scanChar_of_no_room hlive hr hfull, allocateScan_of_refused hlive hno]
      · have hT : (((L.setFree rest).setJob i (some { j with allocation := j.allocation ++ [b] })).evalTight.evalWatermark
            i).job i = some { j with allocation := j.allocation ++ [b] } := by
          rw [table_of_jobs (evalWatermark_jobs _ _), evalTight_job, setJob_job_self]
        refine ⟨_, hT, rfl, ?_⟩
        rw [scanChar_of_no_room hlive hr hfull, allocateScan_of_granted hlive hfree hq hm]
        dsimp only
        rw [storeByte_of_last hT List.getLast?_concat]

end Sys2Proof.Machine
end

section
/-! Proofs about the touch poller's events and replies (sections 6.1 to 6.6). -/

namespace Sys2Proof.Machine

variable {s : State} {d : DeviceId} {p : PanelId}

/-! ### The panels a port polls, and a round's start (R92, R93) -/

theorem polledPanels_of_other (h : (s.device d).record.cls ≠ .touch ∨ (s.device d).service ≠ .online) :
    s.polledPanels d = [] := if_neg fun x => h.elim (· x.1) (· x.2)

theorem beginPoll_setDevice (s : State) (d : DeviceId) (P : DevicePort) (p : PanelId) (rest : List PanelId) :
    (s.setDevice d P).beginPoll d p rest = (s.setDevice d { P with
      holding := some { data := (s.panel p).address, address := decide (P.record.format = .multidrop) },
      poller := { P.poller with pending := rest, current := some (p, .sending) } }).settle d := by
  unfold State.beginPoll State.modPoller State.pollChar
  rw [modDevice_setDevice, modDevice_setDevice, setDevice_device_self]
  rfl

theorem startRound_of_nothing (h : s.polledPanels d = []) : s.startRound d = s.setDevice d { s.device d with
    poller := { running := false, pending := [], current := none, roundDue := false,
                interval := .running (s.device d).record.pollInterval } } := by
  unfold State.startRound
  rw [h]
  rfl

theorem startRound_of_panels {rest : List PanelId} (h : s.polledPanels d = p :: rest) :
    s.startRound d = (s.setDevice d { s.device d with
      holding := some { data := (s.panel p).address, address := decide ((s.device d).record.format = .multidrop) },
      poller := { running := true, pending := rest, current := some (p, .sending), roundDue := false,
                  interval := .running (s.device d).record.pollInterval } }).settle d := by
  unfold State.startRound
  rw [h]
  exact beginPoll_setDevice s d _ p rest

/-! ### The poller's events (R93–R96) -/

theorem pollIntervalExpiry_of_other (h : ∀ n, (s.device d).poller.interval ≠ .running n) :
    exec (.pollIntervalExpiry d) s = .next s := by
  refine congrArg Host.Outcome.next ?_
  split
  · next n hn => exact absurd hn (h n)
  · rfl

theorem pollIntervalExpiry_of_running {n : Nat} (h : (s.device d).poller.interval = .running n) :
    exec (.pollIntervalExpiry d) s = .next (if (s.device d).poller.running then
      s.setDevice d { s.device d with poller := { (s.device d).poller with roundDue := true } } else s.startRound d) :=
  congrArg Host.Outcome.next (by rw [h]; rfl)

theorem replyTimeoutExpiry_of_awaiting {n : Nat} (h : (s.device d).poller.current = some (p, .awaiting n)) :
    exec (.replyTimeoutExpiry d) s = .next ((s.setDevice d { s.device d with
      poller := { (s.device d).poller with current := some (p, .settling true) } }).miss p) := by
  rw [← setStep_of_current h]
  exact congrArg Host.Outcome.next (by rw [h])

theorem replyTimeoutExpiry_of_other (h : ∀ p n, (s.device d).poller.current ≠ some (p, .awaiting n)) :
    exec (.replyTimeoutExpiry d) s = .next s := by
  refine congrArg Host.Outcome.next ?_
  split
  · next p n hn => exact absurd hn (h p n)
  · rfl

theorem malformedReply_of_current {x : PollStep} (h : (s.device d).poller.current = some (p, x)) :
    s.malformedReply d p = ((s.setDevice d { s.device d with
      poller := { (s.device d).poller with current := some (p, .settling false) } }).latchPanel p .replyMalformed).miss
        p := by
  rw [← setStep_of_current h]
  rfl

theorem replyIdleLimit_of_receiving {bytes : List Byte} (h : (s.device d).poller.current = some (p, .receiving bytes))
    (hl : (s.device d).lineHeld = false) : exec (.replyIdleLimit d) s = .next (s.malformedReply d p) :=
  congrArg Host.Outcome.next (by rw [h, hl]; rfl)

theorem replyIdleLimit_of_other (h : (∀ p bytes, (s.device d).poller.current ≠ some (p, .receiving bytes)) ∨
    (s.device d).lineHeld = true) : exec (.replyIdleLimit d) s = .next s := by
  refine congrArg Host.Outcome.next ?_
  split
  · next p bytes hb => exact if_pos (h.resolve_left fun x => x p bytes hb)
  · rfl

theorem settlingEnd_of_settling {b : Bool} (h : (s.device d).poller.current = some (p, .settling b))
    (hl : (s.device d).lineHeld = false) : exec (.settlingEnd d) s = .next (s.advanceRound d) :=
  congrArg Host.Outcome.next (by rw [h, hl]; rfl)

theorem settlingEnd_of_other (h : (∀ p b, (s.device d).poller.current ≠ some (p, .settling b)) ∨
    (s.device d).lineHeld = true) : exec (.settlingEnd d) s = .next s := by
  refine congrArg Host.Outcome.next ?_
  split
  · next p b hb => exact if_pos (h.resolve_left fun x => x p b hb)
  · rfl

theorem advanceRound_of_pending {rest : List PanelId} (h : (s.device d).poller.pending = p :: rest) :
    s.advanceRound d = s.beginPoll d p rest := by
  unfold State.advanceRound
  rw [h]

theorem advanceRound_of_done (h : (s.device d).poller.pending = []) : s.advanceRound d =
    let T := s.setDevice d
      { s.device d with poller := { (s.device d).poller with running := false, current := none } }
    if (s.device d).poller.roundDue then T.startRound d else T := by
  unfold State.advanceRound
  rw [h]
  rfl

/-! ### A miss (R98) -/

theorem setPanel_setPanel (s : State) (p : PanelId) (x y : Panel) : (s.setPanel p x).setPanel p y = s.setPanel p y := by
  simp [State.setPanel]

theorem miss_of_few (h : (s.panel p).missRun < 7 ∨ (s.panel p).presence = .absent) :
    s.miss p = s.setPanel p { s.panel p with missRun := min 8 ((s.panel p).missRun + 1) } := by
  refine if_neg fun ⟨hrun, hpresence⟩ => ?_
  rcases h with h | h
  · omega
  · exact hpresence h

theorem miss_of_last (h : 7 ≤ (s.panel p).missRun) (hp : (s.panel p).presence ≠ .absent) : s.miss p =
    ((s.setPanel p { s.panel p with missRun := 8, presence := .absent }).raise .panelAbsent).releasePanel p := by
  have hrun : min 8 ((s.panel p).missRun + 1) = 8 := by omega
  unfold State.miss
  rw [hrun]
  refine (if_pos ⟨rfl, hp⟩).trans ?_
  refine congrArg (fun t : State => (t.raise .panelAbsent).releasePanel p) ?_
  unfold State.modPanel
  rw [setPanel_setPanel, setPanel_panel_self]

/-- Settles O56. -/
theorem pollerEvents : Obligations.PollerEvents := by
  refine ⟨fun s d => ?_, fun s d => ⟨polledPanels_of_other, polledPanels_of_touch⟩, fun s p => ⟨miss_of_few, miss_of_last⟩⟩
  intro D Q
  refine ⟨pollIntervalExpiry_of_other, fun n => pollIntervalExpiry_of_running, startRound_of_nothing,
    fun p rest => startRound_of_panels, fun p n => replyTimeoutExpiry_of_awaiting, replyTimeoutExpiry_of_other,
    fun p bytes h hl => ?_, replyIdleLimit_of_other, fun c b p rest h hl hp => ?_, fun c b h hl hp => ?_,
    settlingEnd_of_other⟩
  · rw [replyIdleLimit_of_receiving h hl, malformedReply_of_current h]
  · rw [settlingEnd_of_settling h hl, advanceRound_of_pending hp]
  · rw [settlingEnd_of_settling h hl, advanceRound_of_done hp]

end Sys2Proof.Machine
end

section
/-! Proofs about the replies to polls and their reports (sections 6.1, 6.4 to 6.6, 9.7). -/

namespace Sys2Proof.Machine

variable {s : State} {d : DeviceId} {p : PanelId} {x : PollStep} {before : List Byte} {data : Byte} {address : Bool}

/-! ### A character by the poll's step (R94–R96) -/

theorem touchChar_of_unsolicited (h : (s.device d).poller.current = none ∨
    (∃ p, (s.device d).poller.current = some (p, .sending)) ∨
    ∃ p, (s.device d).poller.current = some (p, .settling true)) :
    s.touchChar d data address = s.latchDevice d .unsolicited := by
  unfold State.touchChar
  rcases h with h | ⟨p, h⟩ | ⟨p, h⟩
  · rw [h]
  · rw [h]
  · rw [h]; rfl

theorem touchChar_of_settled (h : (s.device d).poller.current = some (p, .settling false)) :
    s.touchChar d data address = s := by
  unfold State.touchChar
  rw [h]
  rfl

/-- CURRENT takes the bytes of its reply, those given before. -/
def takesReply (s : State) (d : DeviceId) (p : PanelId) (before : List Byte) : Prop :=
  (before = [] ∧ ∃ n, (s.device d).poller.current = some (p, .awaiting n)) ∨
    (s.device d).poller.current = some (p, .receiving before)

theorem takesReply.current (h : takesReply s d p before) : ∃ x, (s.device d).poller.current = some (p, x) := by
  rcases h with ⟨_, n, h⟩ | h
  · exact ⟨_, h⟩
  · exact ⟨_, h⟩

theorem touchChar_of_reply (h : takesReply s d p before) :
    s.touchChar d data address = s.takeReplyByte d p before data address := by
  unfold State.touchChar
  rcases h with ⟨rfl, n, h⟩ | h
  · rw [h]
  · rw [h]

theorem takeReplyByte_of_malformed (h : address = true ∨ 8 < byteAt (before ++ [data]) 0) :
    s.takeReplyByte d p before data address = s.malformedReply d p := by
  unfold State.takeReplyByte
  cases address with
  | true => rfl
  | false => exact if_pos (h.resolve_left (by decide))

theorem takeReplyByte_of_last (ha : address = false) (hc : byteAt (before ++ [data]) 0 ≤ 8)
    (hl : (before ++ [data]).length = 1 + 5 * byteAt (before ++ [data]) 0) :
    s.takeReplyByte d p before data address = ((s.setStep d (.settling true)).goodReply p).takeReports p
      ((before ++ [data]).drop 1) (byteAt (before ++ [data]) 0) := by
  subst ha
  exact (if_neg (Nat.not_lt.mpr hc)).trans (if_pos hl)

theorem takeReplyByte_of_more (ha : address = false) (hc : byteAt (before ++ [data]) 0 ≤ 8)
    (hl : (before ++ [data]).length ≠ 1 + 5 * byteAt (before ++ [data]) 0) :
    s.takeReplyByte d p before data address = s.setStep d (.receiving (before ++ [data])) := by
  subst ha
  exact (if_neg (Nat.not_lt.mpr hc)).trans (if_neg hl)

/-! ### Reports (R97) -/

theorem takeReports_succ {r : List Byte} (rest : List Byte) (n : Nat) (h : r.length = 5) :
    s.takeReports p (r ++ rest) (n + 1) = (s.takeReport p r).takeReports p rest n := by
  rw [State.takeReports, List.take_left' h, List.drop_left' h]

theorem eventOfCode_eq_none_iff : ∀ {n : Nat}, eventOfCode n = none ↔ n = 0 ∨ 3 < n
  | 0 => by decide
  | 1 => by decide
  | 2 => by decide
  | 3 => by decide
  | n + 4 => by simp [eventOfCode]

theorem eventOfCode_code (k : TouchKind) : eventOfCode k.code = some k := by cases k <;> rfl

theorem parseReport_of_bad {a b c e f : Byte} (h : (a.toNat + b.toNat + c.toNat + e.toNat + f.toNat) % 256 ≠ 0xFF ∨
    a.toNat / 16 = 0 ∨ 3 < a.toNat / 16 ∨ 9 < a.toNat % 16) : parseReport [a, b, c, e, f] = none := by
  unfold parseReport
  split
  · next hsum =>
    have hevent := h.resolve_left (not_not_intro hsum)
    split
    · next k i hk hi =>
      have hcode : ¬ (a.toNat / 16 = 0 ∨ 3 < a.toNat / 16) := fun x => by
        rw [show eventOfCode (byteAt [a, b, c, e, f] 0 / 16) = none from eventOfCode_eq_none_iff.mpr x] at hk
        cases hk
      have hcontact : a.toNat % 16 < 10 := toFin_eq_some_iff.mp hi ▸ i.isLt
      omega
    · rfl
  · rfl

theorem parseReport_of_good {a b c e f : Byte} {i : Fin 10} {k : TouchKind}
    (hsum : (a.toNat + b.toNat + c.toNat + e.toNat + f.toNat) % 256 = 0xFF) (hk : a.toNat / 16 = k.code)
    (hi : a.toNat % 16 = i.val) : parseReport [a, b, c, e, f] =
      some (k, i, b.toNat * 16 + c.toNat / 16, c.toNat % 16 * 256 + e.toNat) := by
  have hevent : eventOfCode (byteAt [a, b, c, e, f] 0 / 16) = some k := (congrArg eventOfCode hk).trans (eventOfCode_code k)
  have hcontact : toFin 10 (byteAt [a, b, c, e, f] 0 % 16) = some i := toFin_eq_some_iff.mpr hi
  unfold parseReport
  rw [hevent, hcontact]
  exact if_pos hsum

/-- Settles O57. -/
theorem pollReplies : Obligations.PollReplies := by
  refine ⟨fun s d data address => ?_, fun s p => rfl, fun s p r rest n h => ⟨rfl, takeReports_succ rest n h⟩,
    fun s p => ⟨rfl, rfl⟩, fun s p a b c e f => ?_⟩
  · intro D Q step
    refine ⟨touchChar_of_unsolicited, fun ⟨p, h⟩ => touchChar_of_settled h, fun p before h => ?_⟩
    intro bytes count
    obtain ⟨x, hx⟩ := takesReply.current h
    have hstep : ∀ y, s.setStep d y = step p y := setStep_of_current hx
    rw [touchChar_of_reply h]
    refine ⟨fun hbad => ?_, fun ha hc hl => ?_, fun ha hc hl => ?_⟩
    · rw [takeReplyByte_of_malformed hbad, malformedReply_of_current hx]
    · rw [takeReplyByte_of_last ha hc hl, hstep]
    · rw [takeReplyByte_of_more ha hc hl, hstep]
  · intro r
    refine ⟨fun h => ?_, fun i k hsum hk hi => ?_⟩
    · unfold State.takeReport
      rw [parseReport_of_bad h]
    · have hcode : a.toNat / 16 = k.code := hk.trans (by cases k <;> rfl)
      unfold State.takeReport
      rw [parseReport_of_good hsum hcode hi]

end Sys2Proof.Machine
end

section
/-! Proofs about reports on contact records (chapter 7). -/

namespace Sys2Proof.Machine

variable {s : State} {c : ContactIx} {b : Binding} {sup : Bool} {pt : Nat × Nat}

/-! ### The zone of a canvas point (R112) -/

theorem contains_iff (z : Zone) (p : PanelId) (pt : Nat × Nat) : z.contains p pt = true ↔ z.enabled = true ∧
    z.panel = p ∧ z.x0 ≤ pt.1 ∧ pt.1 ≤ z.x1 ∧ z.y0 ≤ pt.2 ∧ pt.2 ≤ z.y1 := by
  simp only [Zone.contains, Bool.and_eq_true, decide_eq_true_eq, and_assoc]

theorem searchZone_eq_find (s : State) (p : PanelId) (pt : Nat × Nat) :
    s.searchZone p pt = Fin.find? fun z => (s.zone z).contains p pt := Fin.find?_eq_find?_finRange.symm

theorem searchZone_eq_some_iff (s : State) (p : PanelId) (pt : Nat × Nat) (z : ZoneId) : s.searchZone p pt = some z ↔
    (s.zone z).contains p pt = true ∧ ∀ n < z, ¬ (s.zone n).contains p pt = true := by
  simp only [searchZone_eq_find, Fin.find?_eq_some_iff, Bool.not_eq_true]

theorem searchZone_eq_none_iff (s : State) (p : PanelId) (pt : Nat × Nat) :
    s.searchZone p pt = none ↔ ∀ n, ¬ (s.zone n).contains p pt = true := by
  simp only [searchZone_eq_find, Fin.find?_eq_none_iff, Bool.not_eq_true]

/-! ### A fresh DOWN (R117) -/

theorem freshDown_of_none (h : s.searchZone (contactPanel c) pt = none) : s.freshDown c pt = s.setContact c .unzoned := by
  unfold State.freshDown
  rw [h]

theorem freshDown_of_isolated {z : ZoneId} (h : s.searchZone (contactPanel c) pt = some z)
    (hl : (s.kiosk (s.zone z).kiosk).link = .isolated) :
    s.freshDown c pt = s.setContact c (.bound ((s.zone z).capture z)) := by
  unfold State.freshDown
  rw [h]
  exact if_pos hl

theorem freshDown_of_zone {z : ZoneId} (h : s.searchZone (contactPanel c) pt = some z)
    (hl : (s.kiosk (s.zone z).kiosk).link ≠ .isolated) :
    let b := (s.zone z).capture z
    let m := b.map pt
    let H := s.handTouch (s.zone z).kiosk { contact := c, zone := z, kind := .down, kx := m.1, ky := m.2 }
    s.freshDown c pt = H.1.setContact c
      (.bound (if H.2 = .joined then { b with visible := true, last := some m } else b)) := by
  intro b m H
  unfold State.freshDown
  rw [h]
  refine (if_neg hl).trans ?_
  change (match H.2 with
    | .joined => H.1.setContact c (.bound { b with visible := true, last := some m })
    | _ => H.1.setContact c (.bound b)) = _
  cases H.2 <;> rfl

/-! ### Events on a BOUND record (R115, R118–R120) -/

theorem contactEvent_of_bound (h : s.contact c = .bound b) (kind : TouchKind) : s.contactEvent c kind sup pt =
    match kind with
    | .down => s.downBound c b pt
    | .move => if b.upOwed then s else s.moveBound c b sup pt
    | .up => if b.upOwed then s else s.upBound c b pt := by
  unfold State.contactEvent
  rw [h]
  cases kind <;> rfl

theorem moveBound_of_hidden (h : b.visible = false) : s.moveBound c b sup pt = s := by
  unfold State.moveBound
  rw [h]
  rfl

theorem moveBound_of_same (h : b.visible = true) (hs : sup = true) (hl : b.last = some (b.map pt)) :
    s.moveBound c b sup pt = s := by
  unfold State.moveBound
  rw [h, hs]
  exact if_pos (decide_eq_true hl)

theorem moveBound_of_new (h : b.visible = true) (hs : sup = false ∨ b.last ≠ some (b.map pt)) :
    let m := b.map pt
    let H := s.handTouch b.owner { contact := c, zone := b.zone, kind := .move, kx := m.1, ky := m.2 }
    s.moveBound c b sup pt =
      if H.2 = .joined then H.1.setContact c (.bound { b with last := some m }) else H.1 := by
  intro m H
  have hnew : ¬ (sup && decide (b.last = some m)) = true := by
    rw [Bool.and_eq_true, decide_eq_true_iff]
    rintro ⟨hsup, hlast⟩
    exact hs.elim (fun x => by simp [x] at hsup) (· hlast)
  refine (if_neg (by simp [h])).trans ((if_neg hnew).trans ?_)
  change (match H.2 with
    | .joined => H.1.setContact c (.bound { b with last := some m })
    | _ => H.1) = _
  cases H.2 <;> rfl

theorem liftBound_eq {l : Nat × Nat} (hl : b.last = some l) :
    let H := s.handTouch b.owner { contact := c, zone := b.zone, kind := .up, kx := l.1, ky := l.2 }
    s.liftBound c b = H.1.setContact c (if H.2 = .joined then .free else .bound { b with upOwed := true }) := by
  intro H
  unfold State.liftBound
  rw [upEntry_of_last hl]
  change (match H.2 with
    | .joined => H.1.setContact c .free
    | _ => H.1.setContact c (.bound { b with upOwed := true })) = _
  cases H.2 <;> rfl

theorem upBound_of_hidden (h : b.visible = false) : s.upBound c b pt = s.setContact c .free :=
  if_neg (Bool.eq_false_iff.mp h)

theorem upBound_of_visible (h : b.visible = true) :
    let m := b.map pt
    let H := s.handTouch b.owner { contact := c, zone := b.zone, kind := .up, kx := m.1, ky := m.2 }
    s.upBound c b pt =
      H.1.setContact c (if H.2 = .joined then .free else .bound { b with last := some m, upOwed := true }) :=
  (if_pos h).trans (liftBound_eq (b := { b with last := some (b.map pt) }) rfl)

theorem offerOwed_eq {l : Nat × Nat} (hl : b.last = some l) :
    let H := s.handTouch b.owner { contact := c, zone := b.zone, kind := .up, kx := l.1, ky := l.2 }
    s.offerOwed c b pt =
      if H.2 = .joined then (H.1.setContact c .free).freshDown c pt else H.1.overrun b.owner := by
  intro H
  unfold State.offerOwed
  rw [upEntry_of_last hl]
  change (match H.2 with
    | .joined => (H.1.setContact c .free).freshDown c pt
    | _ => H.1.overrun b.owner) = _
  cases H.2 <;> rfl

theorem downBound_of_owed (h : b.upOwed = true) : s.downBound c b pt = s.offerOwed c b pt := if_pos h

theorem downBound_of_hidden (h : b.upOwed = false) (hv : b.visible = false) :
    s.downBound c b pt = (s.setContact c .free).freshDown c pt :=
  (if_neg (Bool.eq_false_iff.mp h)).trans (if_neg (Bool.eq_false_iff.mp hv))

/-- A DOWN on a VISIBLE record hands its UP first; an UP that does not join is owed and offered again (R118). -/
theorem downBound_of_visible {l : Nat × Nat} (h : b.upOwed = false) (hv : b.visible = true) (hl : b.last = some l) :
    let H := s.handTouch b.owner { contact := c, zone := b.zone, kind := .up, kx := l.1, ky := l.2 }
    s.downBound c b pt =
      if H.2 = .joined then (H.1.setContact c .free).freshDown c pt
      else (H.1.setContact c (.bound { b with upOwed := true })).contactEvent c .down sup pt := by
  intro H
  have hagain : (H.1.setContact c (.bound { b with upOwed := true })).contactEvent c .down sup pt =
      (H.1.setContact c (.bound { b with upOwed := true })).offerOwed c { b with upOwed := true } pt := by
    rw [contactEvent_of_bound (setContact_contact_self ..)]
    exact downBound_of_owed rfl
  rw [hagain]
  refine (if_neg (Bool.eq_false_iff.mp h)).trans ((if_pos hv).trans ?_)
  rw [upEntry_of_last hl]
  change (match H.2 with
    | .joined => (H.1.setContact c .free).freshDown c pt
    | _ => (H.1.setContact c (.bound { b with upOwed := true })).offerOwed c { b with upOwed := true } pt) = _
  cases H.2 <;> rfl

/-- Settles O58. -/
theorem reportsOnContacts : Obligations.ReportsOnContacts := by
  refine ⟨fun s p i k x y => rfl, fun s p pt z => ?_, fun s c sup pt => ?_⟩
  · intro inside
    have hinside : ∀ n, inside n ↔ (s.zone n).contains p pt = true := fun n => (contains_iff _ p pt).symm
    simp only [hinside]
    exact ⟨searchZone_eq_some_iff s p pt z, searchZone_eq_none_iff s p pt⟩
  · intro fresh put
    refine ⟨fun h => ?_, fun h => ?_, fun h => ?_, freshDown_of_none, fun z hz => ⟨freshDown_of_isolated hz,
      freshDown_of_zone hz⟩, fun b hb => ?_⟩
    · unfold State.contactEvent
      rcases h with h | h <;> rw [h] <;> exact ⟨rfl, rfl⟩
    · unfold State.contactEvent
      rw [h]
    · unfold State.contactEvent
      rw [h]
    · intro m
      have hdown : s.contactEvent c .down sup pt = s.downBound c b pt := contactEvent_of_bound hb .down
      have hmove : b.upOwed = false → s.contactEvent c .move sup pt = s.moveBound c b sup pt := fun h =>
        (contactEvent_of_bound hb .move).trans (if_neg (Bool.eq_false_iff.mp h))
      have hup : b.upOwed = false → s.contactEvent c .up sup pt = s.upBound c b pt := fun h =>
        (contactEvent_of_bound hb .up).trans (if_neg (Bool.eq_false_iff.mp h))
      refine ⟨fun h => ⟨(contactEvent_of_bound hb .move).trans (if_pos h), (contactEvent_of_bound hb .up).trans (if_pos h)⟩,
        fun h hv => ⟨(hmove h).trans (moveBound_of_hidden hv), (hup h).trans (upBound_of_hidden hv),
          hdown.trans (downBound_of_hidden h hv)⟩, fun h hv hs hl => (hmove h).trans (moveBound_of_same hv hs hl),
        fun h hv hs => (hmove h).trans (moveBound_of_new hv hs), fun h hv => (hup h).trans (upBound_of_visible hv),
        fun l hl => ⟨fun h => ?_, fun h hv => hdown.trans (downBound_of_visible h hv hl)⟩⟩
      exact hdown.trans ((downBound_of_owed h).trans (offerOwed_eq hl))

end Sys2Proof.Machine
end

section
/-! Proofs about what the line and timer events of the device side leave alone (sections 4.2, 5.3). -/

namespace Sys2Proof.Machine

/-! ### The fifteen events that write no spool byte -/

/-- The parts of State that an operation may change without a spool byte. -/
def spoolKept (c : Kind) : Prop := c ≠ .bytes

theorem jobs_spoolKept : spoolKept .jobs := nofun

theorem touch_spoolKept : spoolKept .touch := nofun

theorem Framed.mem_of_spoolKept {s t : State} (h : Framed spoolKept s t) : t.mem = s.mem := h.unwritten (· rfl)

theorem readBlock_of_mem {s t : State} (h : t.mem = s.mem) (b : BlockId) (m : Nat) :
    t.readBlock b m = s.readBlock b m := by
  unfold State.readBlock
  rw [h]

/-- A change of a device port that keeps its record, then a row of moves. -/
theorem Framed.deviceThen {K : Kind → Prop} {s t : State} {d : DeviceId} {f : DevicePort → DevicePort}
    (m : Moves K [] (s.modDevice d f) [] t) (h : (f (s.device d)).record = (s.device d).record) : Framed K s t :=
  .trans (.setDevice h) (moves_framed m)

/-- The line and timer events of a device port but for the character received. -/
def quietEvents (d : DeviceId) (a : Bool) : List Instr :=
  [.atnLineChange d a, .atnBlankingExpiry d, .faultLimitExpiry d, .rdyChange d a, .characterSent d, .deviceBreakEnd d,
    .underrunTimeoutExpiry d, .firstByteTimeoutExpiry d, .endGapReached d, .flushEnd d, .pollIntervalExpiry d,
    .replyTimeoutExpiry d, .replyIdleLimit d, .settlingEnd d, .deviceLineReturnToMark d]

/-- The command's next state differs from `s` in the parts `K` alone. -/
def FramedStep (K : Kind → Prop) (s : State) (c : Instr) : Prop := ∃ t, exec c s = .next t ∧ Framed K s t

section

variable (s : State) (d : DeviceId)

theorem atnBlankingExpiry_framed : FramedStep spoolKept s (.atnBlankingExpiry d) := by
  refine ⟨_, rfl, ?_⟩
  split
  · exact moves_framed (qualify_moves [] s jobs_spoolKept d _)
  · exact .refl

theorem faultLimitExpiry_framed : FramedStep spoolKept s (.faultLimitExpiry d) := by
  refine ⟨_, rfl, ?_⟩
  split
  · dsimp only
    split
    · exact .deviceThen (.trans (decideEnd_moves [] _ jobs_spoolKept _ _) (settle_moves [] _ jobs_spoolKept d)) rfl
    · exact .setDevice rfl
  · exact .refl

theorem characterSent_framed : FramedStep spoolKept s (.characterSent d) := by
  refine ⟨_, rfl, ?_⟩
  split
  · exact .refl
  · exact .deviceThen (.trans (pollCharSent_moves [] _ d) (settle_moves [] _ jobs_spoolKept d)) rfl

theorem deviceBreakEnd_framed : FramedStep spoolKept s (.deviceBreakEnd d) := by
  refine ⟨_, rfl, ?_⟩
  split
  · exact .deviceThen (settle_moves [] _ jobs_spoolKept d) rfl
  · exact .refl

/-- The end of the ACTIVE job, if there is one, and the device side settled. -/
theorem endActive_framed (reason : EndReason) : Framed spoolKept s
    (match s.activeJob d with
      | some i => (s.endJob i reason).settle d
      | none => s) := by
  split
  · exact moves_framed (.trans (endJob_moves [] s jobs_spoolKept _ _) (settle_moves [] _ jobs_spoolKept d))
  · exact .refl

theorem underrunTimeoutExpiry_framed : FramedStep spoolKept s (.underrunTimeoutExpiry d) := by
  refine ⟨_, rfl, ?_⟩
  split
  · exact endActive_framed s d _
  · exact .refl

theorem firstByteTimeoutExpiry_framed : FramedStep spoolKept s (.firstByteTimeoutExpiry d) := by
  refine ⟨_, rfl, ?_⟩
  split
  · exact endActive_framed s d _
  · exact .refl

theorem endGapReached_framed : FramedStep spoolKept s (.endGapReached d) := by
  refine ⟨_, rfl, ?_⟩
  split
  · split
    · exact .refl
    · dsimp only
      split
      · exact .deviceThen (.trans (endIfDelivered_moves [] _ jobs_spoolKept _) (settle_moves [] _ jobs_spoolKept d)) rfl
      · exact .setDevice rfl
  · exact .refl

theorem flushEnd_framed : FramedStep spoolKept s (.flushEnd d) := by
  refine ⟨_, rfl, ?_⟩
  split
  · exact .deviceThen (settle_moves [] _ jobs_spoolKept d) rfl
  · exact .refl

theorem pollIntervalExpiry_framed : FramedStep spoolKept s (.pollIntervalExpiry d) := by
  refine ⟨_, rfl, ?_⟩
  split
  · split
    · exact moves_framed (modPoller_moves [] s d _)
    · exact moves_framed (startRound_moves [] s jobs_spoolKept d)
  · exact .refl

theorem replyTimeoutExpiry_framed : FramedStep spoolKept s (.replyTimeoutExpiry d) := by
  refine ⟨_, rfl, ?_⟩
  split
  · exact moves_framed (.trans (setStep_moves [] s d _) (miss_moves [] _ touch_spoolKept _))
  · exact .refl

theorem replyIdleLimit_framed : FramedStep spoolKept s (.replyIdleLimit d) := by
  refine ⟨_, rfl, ?_⟩
  split
  · split
    · exact .refl
    · exact moves_framed (malformedReply_moves [] s touch_spoolKept d _)
  · exact .refl

theorem settlingEnd_framed : FramedStep spoolKept s (.settlingEnd d) := by
  refine ⟨_, rfl, ?_⟩
  split
  · split
    · exact .refl
    · exact moves_framed (advanceRound_moves [] s jobs_spoolKept d)
  · exact .refl

theorem quietEvents_framed (a : Bool) : ∀ c ∈ quietEvents d a, FramedStep spoolKept s c := by
  simp only [quietEvents, List.forall_mem_cons]
  exact ⟨⟨_, rfl, .deviceThen (followAtn_moves [] _ jobs_spoolKept d) rfl⟩, atnBlankingExpiry_framed s d,
    faultLimitExpiry_framed s d, ⟨_, rfl, .deviceThen (settle_moves [] _ jobs_spoolKept d) rfl⟩, characterSent_framed s d,
    deviceBreakEnd_framed s d, underrunTimeoutExpiry_framed s d, firstByteTimeoutExpiry_framed s d,
    endGapReached_framed s d, flushEnd_framed s d, pollIntervalExpiry_framed s d, replyTimeoutExpiry_framed s d,
    replyIdleLimit_framed s d, settlingEnd_framed s d, ⟨_, rfl, .setDevice rfl⟩, fun _ h => absurd h List.not_mem_nil⟩

theorem deviceChar_framed (data : Byte) (ninth stopMark : Bool) :
    FramedStep anyKind s (.deviceCharReceived d data ninth stopMark) := by
  refine ⟨_, rfl, ?_⟩
  split
  · exact .refl
  · exact .deviceThen (takeChar_moves [] _ trivial trivial trivial d _ _ _) (latchErrors_side ..).2

end

/-! ### The byte that a character writes (R39, R51, R77) -/

/-- Where the character of a scan job goes: the next position of its tail block, or the first of the block at the head
of the free list. -/
def State.charPlace (s : State) (j : Job) : Option (BlockId × Nat) :=
  if j.allocation = [] ∨ 128 ≤ j.tailFill then s.free.head?.map fun x => (x, 0)
  else j.allocation.getLast?.map fun x => (x, j.tailFill)

/-- From `s` to `t` no byte of the spool changes but the one at `place`. -/
def WritesAt (place : Option (BlockId × Nat)) (s t : State) : Prop :=
  ∀ x m, m < 128 → place ≠ some (x, m) → t.readBlock x m = s.readBlock x m

section

variable {s t : State} {d : DeviceId} {i : JobId} {j : Job} {data : Byte} {bad : Bool}

theorem WritesAt.of_mem {place : Option (BlockId × Nat)} (h : t.mem = s.mem) : WritesAt place s t :=
  fun x m _ _ => readBlock_of_mem h x m

theorem writesAt_storeByte {b : BlockId} {fill : Nat} (w : MemoryInv s) (hj : s.job i = some j)
    (hb : j.allocation.getLast? = some b) (hfill : fill < 128) :
    WritesAt (some (b, fill)) s (s.storeByte d i fill data bad) := by
  intro x m hm hne
  have hplace : ¬ (x = b ∧ m % 128 = fill % 128) := by
    rw [Nat.mod_eq_of_lt hm, Nat.mod_eq_of_lt hfill]
    rintro ⟨rfl, rfl⟩
    exact hne rfl
  rw [storeByte_of_last hj hb]
  exact (writeBlock_readBlock s b x fill m data w).trans (if_neg hplace)

theorem evalWatermark_mem (s : State) (i : JobId) : (s.evalWatermark i).mem = s.mem :=
  moves_mem (K := jobsOnly) nofun (evalWatermark_moves [] s i)

theorem truncate_mem (s : State) (d : DeviceId) (i : JobId) : (s.truncate d i).mem = s.mem :=
  moves_mem (K := jobsOnly) nofun (truncate_moves (K := jobsOnly) [] s rfl d i)

/-- R51, R77: what a block granted to a scan job leaves: the spool's bytes, and the block at the tail of the chain. -/
theorem allocateScan_some (hj : s.job i = some j) (h : s.allocateScan i = some t) :
    t.mem = s.mem ∧ ∃ b, s.free.head? = some b ∧ t.job i = some { j with allocation := j.allocation ++ [b] } := by
  unfold State.allocateScan at h
  rw [hj] at h
  split at h
  · next b rest k hfree hk =>
    obtain rfl := Option.some.inj hk
    split at h
    · obtain rfl := Option.some.inj h
      exact ⟨evalTight_mem _, b, congrArg List.head? hfree, (evalTight_job _ i).trans (setJob_job_self ..)⟩
    · exact absurd h nofun
  · exact absurd h nofun

theorem writesAt_scanChar (w : MemoryInv s) (hj : s.job i = some j) :
    WritesAt (s.charPlace j) s (s.scanChar d i data bad) := by
  by_cases hcap : 16777215 ≤ j.received
  · rw [scanChar_of_full hj hcap]
    exact .of_mem (truncate_mem s d i)
  have hroom : j.received < 16777215 := Nat.not_le.mp hcap
  by_cases hfull : j.allocation = [] ∨ 128 ≤ j.tailFill
  · rw [scanChar_of_no_room hj hroom hfull]
    cases hgrant : s.allocateScan i with
    | none => exact .of_mem (truncate_mem s d i)
    | some t =>
      obtain ⟨hmem, b, hfree, hjob⟩ := allocateScan_some hj hgrant
      have hplace : s.charPlace j = some (b, 0) :=
        (if_pos hfull).trans (congrArg (Option.map fun x => (x, 0)) hfree)
      have hsame : (t.evalWatermark i).mem = s.mem := (evalWatermark_mem t i).trans hmem
      have hlast : (t.evalWatermark i).job i = some { j with allocation := j.allocation ++ [b] } := by
        rw [table_of_jobs (evalWatermark_jobs t i), hjob]
      have hw : MemoryInv (t.evalWatermark i) := by
        unfold MemoryInv
        rw [hsame]
        exact w
      intro x m hm hne
      rw [hplace] at hne
      exact (writesAt_storeByte hw hlast List.getLast?_concat (by decide) x m hm hne).trans (readBlock_of_mem hsame x m)
  · obtain ⟨hne, hfill⟩ := not_or.mp hfull
    have hlast := List.getLast?_eq_some_getLast hne
    have hplace : s.charPlace j = some (j.allocation.getLast hne, j.tailFill) :=
      (if_neg hfull).trans (congrArg (Option.map fun x => (x, j.tailFill)) hlast)
    rw [scanChar_of_room hj hroom hne (Nat.not_le.mp hfill), hplace]
    exact writesAt_storeByte w hj hlast (Nat.not_le.mp hfill)

/-- The place of the statement: that of the port's ACTIVE job. -/
def State.activePlace (s : State) (d : DeviceId) : Option (BlockId × Nat) :=
  ((s.activeJob d).bind s.job).bind s.charPlace

theorem activePlace_of_active (ha : s.activeJob d = some i) (hj : s.job i = some j) :
    s.activePlace d = s.charPlace j := by
  unfold State.activePlace
  rw [ha, Option.bind_some, hj, Option.bind_some]

theorem activeScan_some (h : s.activeScan d = some i) : s.activeJob d = some i ∧ ∃ j, s.job i = some j := by
  obtain ⟨hactive, hkind⟩ := Option.filter_eq_some_iff.mp h
  refine ⟨hactive, ?_⟩
  cases hj : s.job i with
  | none => simp [hj] at hkind
  | some j => exact ⟨j, rfl⟩

theorem writesAt_scannerChar (w : MemoryInv s) : WritesAt (s.activePlace d) s (s.scannerChar d data bad) := by
  unfold State.scannerChar
  split
  · exact .of_mem rfl
  · split
    · split
      · next i h =>
        obtain ⟨hactive, j, hj⟩ := activeScan_some h
        rw [activePlace_of_active hactive hj]
        exact writesAt_scanChar w hj
      · exact .of_mem rfl
    · exact .of_mem rfl

theorem offlineChar_mem (s : State) (d : DeviceId) : (s.offlineChar d).mem = s.mem :=
  moves_mem (K := spoolKept) (· rfl) (offlineChar_moves [] s jobs_spoolKept d)

theorem touchChar_mem (s : State) (d : DeviceId) (data : Byte) (address : Bool) :
    (s.touchChar d data address).mem = s.mem :=
  moves_mem (K := spoolKept) (· rfl) (touchChar_moves [] s touch_spoolKept d data address)

theorem writesAt_takeChar {address : Bool} (w : MemoryInv s) :
    WritesAt (s.activePlace d) s (s.takeChar d data address bad) := by
  unfold State.takeChar
  split
  · exact .of_mem (offlineChar_mem s d)
  · exact .of_mem (offlineChar_mem s d)
  · exact writesAt_scannerChar w
  · exact writesAt_scannerChar w
  · exact writesAt_scannerChar w
  · exact .of_mem (touchChar_mem s d data address)
  · exact .of_mem rfl

theorem latched_activePlace (ninth stopMark : Bool) :
    (s.latched d data ninth stopMark).activePlace d = s.activePlace d := by
  have hactive : (s.latched d data ninth stopMark).activeJob d = s.activeJob d := by
    rw [latched_eq]
    exact activeJob_setDevice rfl
  exact congrArg (fun i => (i.bind s.job).bind s.charPlace) hactive

theorem deviceChar_writesAt (w : MemoryInv s) (ninth stopMark : Bool) :
    ∃ t, exec (.deviceCharReceived d data ninth stopMark) s = .next t ∧ WritesAt (s.activePlace d) s t := by
  cases h : (s.device d).lineHeld with
  | true => exact ⟨s, deviceChar_of_held h, .of_mem rfl⟩
  | false =>
    have hw : MemoryInv (s.latched d data ninth stopMark) := w
    refine ⟨_, deviceChar_of_mark h, ?_⟩
    rw [← latched_activePlace (data := data) ninth stopMark]
    exact writesAt_takeChar hw

end

/-- What the statement asks of every event. -/
theorem Framed.facts {K : Kind → Prop} {s t : State} (h : Framed K s t) :
    t.routes = s.routes ∧ t.zones = s.zones ∧ t.spoolRecord = s.spoolRecord ∧
      t.store = s.store ∧ t.starting = s.starting ∧ t.noticePort = s.noticePort ∧ t.noticeMask = s.noticeMask ∧
      t.pending = s.pending ∧ t.freeIndex = s.freeIndex ∧
      (∀ e, (t.device e).record = (s.device e).record) ∧
      (∀ p, ∃ pr m cl w, t.panel p = { s.panel p with presence := pr, missRun := m, clamps := cl, causes := w }) ∧
      (∀ k, ∃ q tq w, t.kiosk k = { s.kiosk k with control := q, touch := tq, causes := w } ∧
        q.filter ControlEntry.isReply = (s.kiosk k).control.filter ControlEntry.isReply) ∧
      ∀ f : Flag, f.isIn s.flags = true → f.isIn t.flags = true := by
  refine ⟨h.routes, h.zones, h.spoolRecord, h.store, h.starting, h.noticePort, h.noticeMask, h.pending, h.freeIndex,
    h.device, fun p => ?_, fun k => ?_, h.flags⟩
  · obtain ⟨pr, m, cl, w, hp, -, -⟩ := h.panel p
    exact ⟨pr, m, cl, w, hp⟩
  · obtain ⟨q, tq, w, hk, hreplies, -, -⟩ := h.kiosk k
    exact ⟨q, tq, w, hk, hreplies⟩

/-- Settles O60. -/
theorem deviceSideFrame : Obligations.DeviceSideFrame := by
  refine ⟨fun s d data a b c hc => ?_, fun s d a c hc => ?_, fun s d data a b w => deviceChar_writesAt w a b⟩
  · have hsplit : c = .deviceCharReceived d data a b ∨ c ∈ quietEvents d a := by
      simp only [quietEvents, List.mem_cons] at hc ⊢
      tauto
    rcases hsplit with rfl | hquiet
    · obtain ⟨t, ht, hframe⟩ := deviceChar_framed s d data a b
      exact ⟨t, ht, hframe.facts⟩
    · obtain ⟨t, ht, hframe⟩ := quietEvents_framed s d a c hquiet
      exact ⟨t, ht, hframe.facts⟩
  · obtain ⟨t, ht, hframe⟩ := quietEvents_framed s d a c hc
    exact ⟨t, ht, readBlock_of_mem hframe.mem_of_spoolKept⟩

end Sys2Proof.Machine
end

section
/-! Proofs about the touch queues and the contacts that feed them (sections 6.7, 7.8, 8.3). -/

namespace Sys2Proof.Machine

variable {s : State} {k : KioskId} {c : ContactIx} {b : Binding}

/-! ### The newest entry of a contact, the newest MOVE -/

section

variable {q l r as bs : List TouchEntry} {e x : TouchEntry}

theorem newestIsMove_append (hx : x.contact = c) (hb : ∀ y ∈ bs, y.contact ≠ c) :
    newestIsMove (as ++ x :: bs) c = (x.kind == .move) := by
  have hbs : bs.filter (fun e => e.contact == c) = [] := by simpa using hb
  have hlast : ((as ++ x :: bs).filter fun e => e.contact == c).getLast? = some x := by
    rw [List.filter_append, List.filter_cons_of_pos (by simpa using hx), hbs, List.getLast?_concat]
  unfold newestIsMove
  rw [hlast]

/-- Where the contact's newest entry is a MOVE, the queue is cut at that MOVE. -/
theorem newestIsMove_split (h : newestIsMove q c = true) :
    ∃ as x bs, q = as ++ x :: bs ∧ x.contact = c ∧ x.kind = .move ∧ ∀ y ∈ bs, y.contact ≠ c := by
  induction q using List.reverseRecOn with
  | nil => exact absurd h nofun
  | append_singleton q y ih =>
    by_cases hy : y.contact = c
    · have hkind := newestIsMove_append (as := q) (bs := []) hy (fun _ m => absurd m List.not_mem_nil)
      exact ⟨q, y, [], rfl, hy, eq_of_beq (hkind.symm.trans h), fun _ m => absurd m List.not_mem_nil⟩
    · have hsame : newestIsMove (q ++ [y]) c = newestIsMove q c := by
        unfold newestIsMove
        rw [List.filter_append, List.filter_cons_of_neg (by simpa using hy), List.filter_nil, List.append_nil]
      obtain ⟨as, x, bs, rfl, hx, hmove, hbs⟩ := ih (hsame.symm.trans h)
      refine ⟨as, x, bs ++ [y], by simp, hx, hmove, fun z hz => ?_⟩
      rcases List.mem_append.mp hz with hz | hz
      · exact hbs z hz
      · exact List.mem_singleton.mp hz ▸ hy

theorem coalesceNewest_append {kx ky : Nat} (hx : x.contact = c) (hl : ∀ y ∈ l, y.contact ≠ c) :
    coalesceNewest c kx ky (l ++ x :: r) = l ++ { x with kx := kx, ky := ky } :: r := by
  induction l with
  | nil => exact if_pos hx
  | cons y l ih =>
    obtain ⟨hy, hrest⟩ := List.forall_mem_cons.mp hl
    exact (if_neg hy).trans (congrArg (y :: ·) (ih hrest))

theorem dropNewestMove_append (hx : x.kind = .move) (hl : ∀ y ∈ l, y.kind ≠ .move) :
    dropNewestMove (l ++ x :: r) = l ++ r := by
  induction l with
  | nil => exact if_pos hx
  | cons y l ih =>
    obtain ⟨hy, hrest⟩ := List.forall_mem_cons.mp hl
    exact (if_neg hy).trans (congrArg (y :: ·) (ih hrest))

/-! ### The six cases of an insertion (R130, R131) -/

theorem insertTouch_of_coalesce (he : e.kind = .move) (hm : x.kind = .move) (hx : x.contact = e.contact)
    (hb : ∀ y ∈ bs, y.contact ≠ e.contact) : insertTouch (as ++ x :: bs) e =
      (as ++ { x with kx := e.kx, ky := e.ky } :: bs, .joined, false) := by
  have hnewest : newestIsMove (as ++ x :: bs) e.contact = true :=
    (newestIsMove_append hx hb).trans (beq_iff_eq.mpr hm)
  have hreverse : (coalesceNewest e.contact e.kx e.ky (as ++ x :: bs).reverse).reverse =
      as ++ { x with kx := e.kx, ky := e.ky } :: bs := by
    rw [List.reverse_append, List.reverse_cons, List.append_assoc, List.singleton_append,
      coalesceNewest_append hx (by simpa using hb)]
    simp
  unfold insertTouch
  rw [if_pos ⟨he, hnewest⟩, hreverse]

/-- Where no MOVE coalesces, an insertion goes by the room of the queue. -/
theorem insertTouch_of_not_coalesce (h : ¬ (e.kind = .move ∧ newestIsMove q e.contact = true)) : insertTouch q e =
    if q.length < 4 then (q ++ [e], .joined, false)
    else if e.kind = .move then (q, .discarded, true)
    else if q.any (fun x => x.kind == .move) then ((dropNewestMove q.reverse).reverse ++ [e], .joined, true)
    else if e.kind = .down then (q, .discarded, true)
    else (q, .owed, true) := if_neg h

theorem reverse_dropNewestMove (hx : x.kind = .move) (hb : ∀ y ∈ bs, y.kind ≠ .move) :
    (dropNewestMove (as ++ x :: bs).reverse).reverse = as ++ bs := by
  rw [List.reverse_append, List.reverse_cons, List.append_assoc, List.singleton_append,
    dropNewestMove_append hx (by simpa using hb)]
  simp

theorem insertTouch_cases (q : List TouchEntry) (e : TouchEntry)
    (h : e.kind = .move → ∀ as x bs, q = as ++ x :: bs → x.contact = e.contact → (∀ y ∈ bs, y.contact ≠ e.contact) →
      x.kind ≠ .move) :
    (q.length < 4 → insertTouch q e = (q ++ [e], .joined, false)) ∧
      (q.length = 4 → e.kind = .move → insertTouch q e = (q, .discarded, true)) ∧
      (∀ as x bs, q.length = 4 → e.kind ≠ .move → q = as ++ x :: bs → x.kind = .move → (∀ y ∈ bs, y.kind ≠ .move) →
        insertTouch q e = (as ++ bs ++ [e], .joined, true)) ∧
      (q.length = 4 → e.kind = .down → (∀ y ∈ q, y.kind ≠ .move) → insertTouch q e = (q, .discarded, true)) ∧
      (q.length = 4 → e.kind = .up → (∀ y ∈ q, y.kind ≠ .move) → insertTouch q e = (q, .owed, true)) := by
  have hnew : ¬ (e.kind = .move ∧ newestIsMove q e.contact = true) := by
    rintro ⟨he, hnewest⟩
    obtain ⟨as, x, bs, hq, hx, hmove, hbs⟩ := newestIsMove_split hnewest
    exact h he as x bs hq hx hbs hmove
  have hfull : q.length = 4 → ¬ q.length < 4 := fun h => by omega
  have hnone : (∀ y ∈ q, y.kind ≠ .move) → ¬ q.any (fun x => x.kind == .move) = true := fun h => by simpa using h
  rw [insertTouch_of_not_coalesce hnew]
  refine ⟨fun hlen => if_pos hlen, fun hlen he => ?_, fun as x bs hlen he hq hx hbs => ?_, fun hlen he hq => ?_,
    fun hlen he hq => ?_⟩
  · rw [if_neg (hfull hlen), if_pos he]
  · have hany : q.any (fun x => x.kind == .move) = true := List.any_eq_true.mpr ⟨x, by simp [hq], by simp [hx]⟩
    rw [if_neg (hfull hlen), if_neg he, if_pos hany, hq, reverse_dropNewestMove hx hbs]
  · rw [if_neg (hfull hlen), if_neg (by simp [he]), if_neg (hnone hq), if_pos he]
  · rw [if_neg (hfull hlen), if_neg (by simp [he]), if_neg (hnone hq), if_neg (by simp [he])]

end

/-! ### The lowest owed UP (R132) -/

theorem placeOwed_of_full {cs : List ContactIx} (h : (s.kiosk k).touch.length = 4) : s.placeOwed k cs = s := by
  induction cs with
  | nil => rfl
  | cons c rest ih => rw [placeOwed_of_not fun b _ ho => by omega, ih]

/-- In a row of ascending contacts the lowest one that owes takes the last place of the queue. -/
theorem placeOwed_of_lowest {cs : List ContactIx} (hlen : (s.kiosk k).touch.length = 3) (hb : s.contact c = .bound b)
    (ho : b.upOwed = true) (hk : b.owner = k)
    (hlow : ∀ n b', n < c → s.contact n = .bound b' → b'.owner = k → b'.upOwed = false)
    (hsorted : cs.Pairwise (· < ·)) (hc : c ∈ cs) : s.placeOwed k cs =
      (s.modKiosk k fun p => { p with touch := p.touch ++ [b.upEntry c] }).setContact c .free := by
  induction cs with
  | nil => exact absurd hc List.not_mem_nil
  | cons n rest ih =>
    obtain ⟨hfirst, hrest⟩ := List.pairwise_cons.mp hsorted
    rcases List.mem_cons.mp hc with rfl | hc
    · rw [placeOwed_of_owed hb ho hk (by omega)]
      refine placeOwed_of_full ?_
      have htouch := congrArg KioskPort.touch (modKiosk_kiosk_self s k fun p => { p with touch := p.touch ++ [b.upEntry c] })
      rw [setContact_kiosk, htouch, List.length_append, hlen, List.length_singleton]
    · rw [placeOwed_of_not fun b' hb' h => ?_, ih hrest hc]
      exact Bool.false_ne_true ((hlow n b' (hfirst c hc) hb' h.2.1).symm.trans h.1)

/-! ### A contact released (R100) -/

theorem releaseContact_of_free (h : s.contact c = .free) : s.releaseContact c = s := by
  unfold State.releaseContact
  rw [h]

theorem releaseContact_of_unzoned (h : s.contact c = .unzoned) : s.releaseContact c = s.setContact c .free := by
  unfold State.releaseContact
  rw [h]

theorem releaseContact_of_bound (h : s.contact c = .bound b) : s.releaseContact c =
    if b.upOwed then s else if b.visible then s.liftBound c b else s.setContact c .free := by
  unfold State.releaseContact
  rw [h]

/-- Settles O59. -/
theorem touchQueueInsertion : Obligations.TouchQueueInsertion := by
  refine ⟨fun q e _ => ⟨fun a x b hq he hm hx hb => hq ▸ insertTouch_of_coalesce he hm hx hb, insertTouch_cases q e⟩,
    fun s k e => ⟨rfl, rfl⟩, fun s k => rfl, fun s k c b l hlen hb ho hk hl hlow => ?_, fun s c =>
    ⟨releaseContact_of_free, releaseContact_of_unzoned, fun b hb => ?_⟩, fun s k c => ?_⟩
  · have hplaced := placeOwed_of_lowest (cs := allContacts) hlen hb ho hk hlow (List.pairwise_lt_finRange 160)
      (List.mem_finRange c)
    rw [hplaced, upEntry_of_last hl]
    rfl
  · have hrelease := releaseContact_of_bound hb
    have hnot : b.upOwed = false → ¬ b.upOwed = true := Bool.eq_false_iff.mp
    refine ⟨fun h => hrelease.trans (if_pos h), fun h hv => ?_, fun l h hv hl => ?_⟩
    · exact hrelease.trans ((if_neg (hnot h)).trans (if_neg (Bool.eq_false_iff.mp hv)))
    · exact hrelease.trans ((if_neg (hnot h)).trans ((if_pos hv).trans (liftBound_eq hl)))
  · rw [loseOwner_contact]
    cases s.contact c <;> rfl

end Sys2Proof.Machine
end
